-- ==== Sys2Proof/Word.lean ====
section
/-! DEFINITION. The byte and the 32-bit word of the WJ-2240's ports, records and frames (R61, R183, R185). -/

namespace Sys2Proof

/-- One byte of a memory, a record or a frame. -/
abbrev Byte := BitVec 8

/-- One 32-bit beat, and the 32-bit numbers the manual counts modulo 2^32 or compares as numbers:
sequence numbers (R66), epoch numbers (R85), generations (R76), the journal identity (R63). -/
abbrev Word := BitVec 32

end Sys2Proof
end

