-- ==== Sys2Proof/Config.lean ====
section
/-! DEFINITION. What the device fixes (R168, R186) and the free values the manual leaves open. -/

namespace Sys2Proof.Config

/-- Free value (log 8): whether the next beat of a forwarded burst that holds the D-port has already been
presented when a change of engine state cuts it (R37). Read with the state's `fresh` counter. -/
opaque beatPresented : Nat → Bool

/-- Free value (log 8): when a command comes about while two claims still wait at the boundary, whether the region
commit is taken first (R40: either order). Read with the state's `fresh` counter. -/
opaque commitFirst : Nat → Bool

/-- Metrava's vendor code (R186). -/
def vendorCode : BitVec 16 := 0x4D54
/-- The WJ-2240's part code (R186). -/
def partCode : BitVec 16 := 0x2240
/-- The revision code (R186). -/
def revision : Byte := 0x01
/-- Entries of a region table (R1, R168). -/
def regionCount : Nat := 12
/-- Entries the epoch table can hold (R83, R168). -/
def epochCapacity : Nat := 16
/-- The largest slot count of a journal (R60, R168). -/
def maxSlotCount : Nat := 163840
/-- The smallest slot count of a journal (R60). -/
def minSlotCount : Nat := 64
/-- The number of notice kinds (R168, R173). -/
def noticeKinds : Nat := 12
/-- The longest parameter field of a command frame (R159). -/
def maxParams : Nat := 32
/-- The last epoch number that can be used (R85). -/
def maxEpoch : Word := 0xFFFFFFFF

end Sys2Proof.Config
end

