-- ==== Sys2Proof/Syntax.lean ====
section
/-! DEFINITION. The commands of the block: one constructor for each row of spec/opcode_table.json. -/

namespace Sys2Proof

/-- A command frame after its SYNC and code bytes (R159): the tag, the parameter bytes (the length byte is their
number) and the CRC-8 byte as received. -/
structure Frame where
  tag : Byte
  params : List Byte
  check : Byte
deriving DecidableEq, Repr

/-- The commands. A row about a transfer on the J-port or the D-port is the end of ONE burst of that transfer; the
row's named effect comes with its last burst (log 3). `beats` is how many beats of the failing burst the memory had
acknowledged before it answered with an error (R61, R126). -/
inductive Instr where
  /-- PORn asserted (R46). The operands count the beats already acknowledged of the write bursts then on the J-port
  and of the walker's burst on the D-port (R61, R138). -/
  | powerOnReset (jBeats dBeats : Fin 4)
  /-- SRSTn asserted (R41). -/
  | systemReset
  /-- USTB asserted (R21): UA[25:2], UWR, UBL (true: four beats), UPRV. -/
  | accessArrival (ua : BitVec 24) (write burst priv : Bool)
  /-- DRDY on the forwarded beat (R24). `ube` is the beat's UBE; `data` is UD of a write beat, or for a read beat
  what DD carries in the lanes whose enable is off (log 9). -/
  | forwardBeatAck (ube : BitVec 4) (data : Word)
  /-- DERR on the forwarded beat (R25). -/
  | forwardDerr
  /-- An old-data burst completes (R33). -/
  | oldDataBurstDone
  /-- DERR on an old-data burst (R36). -/
  | oldDataDerr
  /-- A burst of the UNDO record is acknowledged (R73). -/
  | recordWriteDone
  /-- JERR on a burst of the UNDO record (R36). -/
  | recordWriteJerr (beats : Fin 4)
  /-- A burst of the MARKER is acknowledged (R74). -/
  | markerWriteDone
  /-- JERR on a burst of the MARKER (R74). -/
  | markerWriteJerr (beats : Fin 4)
  /-- A burst of a header copy is acknowledged (R76, R77). -/
  | headerWriteDone
  /-- JERR on a burst of a header copy (R78). -/
  | headerWriteJerr (beats : Fin 4)
  /-- The running sweep completes (R54). -/
  | sweepComplete
  /-- The 1 µs tick (R44). -/
  | timeBaseTick
  /-- The hold timer's expiry is handed to the full-journal rules (R111). -/
  | holdTimerExpiry
  /-- The waiting commit is taken (R17). -/
  | commitTaken
  /-- The waiting cut is taken (R91). -/
  | cutTaken
  /-- The waiting rollback start is taken (R119). -/
  | rollbackStart
  /-- A burst of the walker's slot read completes (R123, R124). -/
  | walkerSlotRead
  /-- JERR on the walker's read (R123). -/
  | walkerReadJerr
  /-- A write-back burst is acknowledged (R126). -/
  | writeBackDone
  /-- DERR on a write-back burst (R126). -/
  | writeBackDerr (beats : Fin 4)
  /-- A burst of RECOVER's read of the header copies completes (R145). -/
  | headerCopiesRead
  /-- A burst of the scan's slot read completes (R148). -/
  | scanSlotRead
  /-- A burst of the map load's slot read completes (R57). -/
  | mapLoadRead
  /-- JERR on a recovery read (R145, R150, R57). -/
  | recoveryReadJerr
  /-- A burst of READ_SLOT completes (R80). -/
  | readSlotDone
  /-- JERR on a burst of READ_SLOT (R80). -/
  | readSlotJerr
  /-- MSELn falls (R158, R165). -/
  | transactionStart
  /-- MSELn rises (R158, R160). -/
  | transactionEnd
  /-- The response's CRC-8 byte has been clocked out (R166). -/
  | responseDelivered
  /-- A length byte above 32 completes (R160): code, tag and the length byte. -/
  | lengthOverrun (code tag len : Byte)
  /-- A complete frame with a code that is no command (R161). -/
  | unknownCommandFrame (code : Byte) (f : Frame)
  | identify (f : Frame)
  | getStatus (f : Frame)
  | writeRegion (f : Frame)
  | readRegion (f : Frame)
  | commitRegions (f : Frame)
  | revertStaged (f : Frame)
  | setPolicy (f : Frame)
  | format (f : Frame)
  | recover (f : Frame)
  | checkpoint (f : Frame)
  | release (f : Frame)
  | rollback (f : Frame)
  | abort (f : Frame)
  | readEpochs (f : Frame)
  | readNotice (f : Frame)
  | readSlot (f : Frame)
  /-- SRSTn returns to its inactive level (R41). -/
  | srstnDeasserted
  /-- PORn returns to its inactive level (R46). -/
  | pornDeasserted
deriving DecidableEq, Repr

end Sys2Proof
end

