-- ==== Sys2Proof/WellFormed.lean ====
section
/-! DEFINITION. Which commands the outside world can send: the frame limits of R159 to R161. -/

namespace Sys2Proof

/-- A frame the framer can complete: at most 32 parameter bytes (R159). -/
def Frame.wellFormed (f : Frame) : Bool := decide (f.params.length ≤ Config.maxParams)

/-- The sixteen command codes are 01h to 10h (R185). -/
def isCommandCode (code : Byte) : Bool := decide (1 ≤ code.toNat) && decide (code.toNat ≤ 16)

/-- A command as the outside world can send it. Every other operand is right by its type. -/
def Instr.wellFormed (i : Instr) : Bool :=
  match i with
  | .powerOnReset _ _ | .systemReset | .accessArrival _ _ _ _ | .forwardBeatAck _ _ | .forwardDerr
  | .oldDataBurstDone | .oldDataDerr | .recordWriteDone | .recordWriteJerr _ | .markerWriteDone
  | .markerWriteJerr _ | .headerWriteDone | .headerWriteJerr _ | .sweepComplete | .timeBaseTick
  | .holdTimerExpiry | .commitTaken | .cutTaken | .rollbackStart | .walkerSlotRead | .walkerReadJerr
  | .writeBackDone | .writeBackDerr _ | .headerCopiesRead | .scanSlotRead | .mapLoadRead | .recoveryReadJerr
  | .readSlotDone | .readSlotJerr | .transactionStart | .transactionEnd | .responseDelivered
  | .srstnDeasserted | .pornDeasserted => true
  | .lengthOverrun _ _ len => decide (Config.maxParams < len.toNat)
  | .unknownCommandFrame code f => !isCommandCode code && f.wellFormed
  | .identify f | .getStatus f | .writeRegion f | .readRegion f | .commitRegions f | .revertStaged f
  | .setPolicy f | .format f | .recover f | .checkpoint f | .release f | .rollback f | .abort f
  | .readEpochs f | .readNotice f | .readSlot f => f.wellFormed

end Sys2Proof
end

