-- ==== Sys2Proof/Decode.lean ====
section
/-! DEFINITION. The table gives no row any bits, so no word spells a command (decodeTableWord). The link's byte code is
the one encoding the manual gives its commands: the bits and bytes of one transaction and the frame they carry
(R158 to R160, R185). -/

namespace Sys2Proof

/-- No row of spec/opcode_table.json has bits: no word spells a command. -/
def decodeTableWord (_nbits _w : Nat) : Option Instr := none

/-- The SYNC byte of a command frame (R159). -/
def commandSync : Byte := 0xC3

/-- The command of a complete frame by its code byte (R185); any other code is an unknown command. -/
def frameCommand (code : Byte) (f : Frame) : Instr :=
  match code.toNat with
  | 0x01 => .identify f
  | 0x02 => .getStatus f
  | 0x03 => .writeRegion f
  | 0x04 => .readRegion f
  | 0x05 => .commitRegions f
  | 0x06 => .revertStaged f
  | 0x07 => .setPolicy f
  | 0x08 => .format f
  | 0x09 => .recover f
  | 0x0A => .checkpoint f
  | 0x0B => .release f
  | 0x0C => .rollback f
  | 0x0D => .abort f
  | 0x0E => .readEpochs f
  | 0x0F => .readNotice f
  | 0x10 => .readSlot f
  | _ => .unknownCommandFrame code f

/-- The receive framer over the input bytes of one transaction (R159, R160): the command its frame makes, or none
for a transaction whose first byte is not SYNC or that ends inside a frame. Bytes after the frame are ignored. -/
def decodeFrame (input : List Byte) : Option Instr :=
  match input with
  | sync :: code :: tag :: len :: rest =>
    if sync = commandSync then
      if Config.maxParams < len.toNat then some (.lengthOverrun code tag len)
      else
        match rest.drop len.toNat with
        | check :: _ => some (frameCommand code ⟨tag, rest.take len.toNat, check⟩)
        | [] => none
    else none
  | _ => none

/-- The bytes of a frame, SYNC first and CRC-8 last (R159). -/
def frameBytes (code : Byte) (f : Frame) : List Byte :=
  commandSync :: code :: f.tag :: BitVec.ofNat 8 f.params.length :: (f.params ++ [f.check])

/-- The input bytes that make a command of the link; none for a command that is no frame. -/
def encodeFrame (i : Instr) : Option (List Byte) :=
  match i with
  | .lengthOverrun code tag len => some [commandSync, code, tag, len]
  | .unknownCommandFrame code f => some (frameBytes code f)
  | .identify f => some (frameBytes 0x01 f)
  | .getStatus f => some (frameBytes 0x02 f)
  | .writeRegion f => some (frameBytes 0x03 f)
  | .readRegion f => some (frameBytes 0x04 f)
  | .commitRegions f => some (frameBytes 0x05 f)
  | .revertStaged f => some (frameBytes 0x06 f)
  | .setPolicy f => some (frameBytes 0x07 f)
  | .format f => some (frameBytes 0x08 f)
  | .recover f => some (frameBytes 0x09 f)
  | .checkpoint f => some (frameBytes 0x0A f)
  | .release f => some (frameBytes 0x0B f)
  | .rollback f => some (frameBytes 0x0C f)
  | .abort f => some (frameBytes 0x0D f)
  | .readEpochs f => some (frameBytes 0x0E f)
  | .readNotice f => some (frameBytes 0x0F f)
  | .readSlot f => some (frameBytes 0x10 f)
  | .powerOnReset _ _ | .systemReset | .accessArrival _ _ _ _ | .forwardBeatAck _ _ | .forwardDerr
  | .oldDataBurstDone | .oldDataDerr | .recordWriteDone | .recordWriteJerr _ | .markerWriteDone
  | .markerWriteJerr _ | .headerWriteDone | .headerWriteJerr _ | .sweepComplete | .timeBaseTick
  | .holdTimerExpiry | .commitTaken | .cutTaken | .rollbackStart | .walkerSlotRead | .walkerReadJerr
  | .writeBackDone | .writeBackDerr _ | .headerCopiesRead | .scanSlotRead | .mapLoadRead | .recoveryReadJerr
  | .readSlotDone | .readSlotJerr | .transactionStart | .transactionEnd | .responseDelivered
  | .srstnDeasserted | .pornDeasserted => none

/-! ## The bits of a transaction (R158) -/

/-- A byte's bits in the order of the wire, most significant first. -/
def byteBits (b : Byte) : List Bool :=
  [b.getLsbD 7, b.getLsbD 6, b.getLsbD 5, b.getLsbD 4, b.getLsbD 3, b.getLsbD 2, b.getLsbD 1, b.getLsbD 0]

/-- The byte that eight bits of the wire make, the first of them the most significant. -/
def byteOfBits (b7 b6 b5 b4 b3 b2 b1 b0 : Bool) : Byte :=
  let bit := BitVec.ofBool
  bit b7 ++ bit b6 ++ bit b5 ++ bit b4 ++ bit b3 ++ bit b2 ++ bit b1 ++ bit b0

/-- The input bytes of a transaction from the bits MSI shows at the rising edges of MCK while MSELn is low. A byte of
which fewer than eight bits have been sampled when MSELn rises is discarded. -/
def assembleBytes (msi : List Bool) : List Byte :=
  match msi with
  | b7 :: b6 :: b5 :: b4 :: b3 :: b2 :: b1 :: b0 :: rest => byteOfBits b7 b6 b5 b4 b3 b2 b1 b0 :: assembleBytes rest
  | _ => []

/-- The bit MSO shows to rising edge n of a transaction (the first is 0): the response frame's bytes, then FFh
(R158, R165). -/
def outputBit (mso : List Byte) (n : Nat) : Bool := (byteBits (mso.getD (n / 8) 0xFF)).getD (n % 8) true

/-- The commands that one transaction comes to, from the bits on MSI and the length of the response on MSO (0: none):
MSELn falls; the response's last byte is clocked out, if the transaction is that long; the frame ends, if it holds one;
MSELn rises. A response that ends at the frame's last edge or before it is delivered first (R158, R160, R167). -/
def transactionCommands (response : Nat) (msi : List Bool) : List Instr :=
  let input := assembleBytes msi
  let delivered := if 0 < response ∧ response ≤ input.length then [Instr.responseDelivered] else []
  let body :=
    match decodeFrame input with
    | none => delivered
    | some i => if response ≤ ((encodeFrame i).getD []).length then delivered ++ [i] else i :: delivered
  .transactionStart :: (body ++ [.transactionEnd])

end Sys2Proof
end

