-- ==== Sys2Proof/Machine/State.lean ====
section
/-! DEFINITION. All the state the manual gives the WJ-2240, block by block (00_scope.md, block diagram), the two
partner memories, the queue of waiting commands, and the machine right after reset. -/

namespace Sys2Proof.Machine

/-! ## Region Matcher (chapter 1) -/

/-- The cycle classes a region admits (R1, R6). -/
inductive RegionClass where
  | normal | privileged | either
deriving DecidableEq, Repr

/-- A region's policy (R1). -/
inductive Policy where
  | capture | exempt | guard | mark
deriving DecidableEq, Repr

/-- One entry of a region table (R1). -/
structure Region where
  enabled : Bool
  base : BitVec 16
  mask : BitVec 16
  cls : RegionClass
  policy : Policy
deriving DecidableEq, Repr

/-- The entry every region holds after power-on (R2). -/
def Region.powerOn : Region := ⟨false, 0, 0, .normal, .capture⟩

/-- The two copies of the region table (R1). -/
structure RegionMatcher where
  staged : Vector Region 12
  active : Vector Region 12
deriving DecidableEq, Repr

/-! ## Names shared by the blocks -/

/-- The engine states (chapter 5, section 5.1). -/
inductive Engine where
  | offline | formatting | recovering | journaling | rollingBack | settling | held | faulted
deriving DecidableEq, Repr

/-- Status codes of responses (R186). -/
inductive Status where
  | ok | accepted | busy | wrongState | badCheck | badCommand | badLength | badParam | badRegion
  | journalFull | epochsFull | sweepBusy | ckptInFlight | notRetained | unrestorable | epochLimit
  | empty | jError
deriving DecidableEq, Repr

/-- The cause field of a MARKER (R64). -/
inductive Cause where
  | format | manual | mark | manualAndMark | reopen
deriving DecidableEq, Repr

/-- Why an epoch was broken (R105). -/
inductive BreakCause where
  | fullBreak | holdExpired
deriving DecidableEq, Repr

/-- Why a walk halted (R129). -/
inductive HaltCause where
  | aborted | badRecord | dError | jError
deriving DecidableEq, Repr

/-- The outcome of RECOVER (R153). -/
inductive RecoverOutcome where
  | restored | restoredHeld | noJournal | badJournal | windowConflict | jError
deriving DecidableEq, Repr

/-- The failed transfer a PORT_ERROR names (R180); OLD_DATA_READ is on port D, the others on port J. -/
inductive PortOperation where
  | oldDataRead | recordWrite | markerWrite | headerWrite
deriving DecidableEq, Repr

/-- The capture window (R47): base, and size code 0 to 4. -/
structure Window where
  base : Nat
  code : Nat
deriving DecidableEq, Repr

/-! ## Notice unit (chapter 10) -/

/-- A post to the Notice unit: its kind with the kind's detail (section 10.4). -/
inductive Notice where
  | ckptDone (epoch : Word) (cause : Cause) (slot merged : Nat)
  | markDeferred (reason : Status)
  | guardHit (addr : Nat) (priv : Bool) (region : Nat)
  | refusedAccess (addr : Nat) (write : Bool) (engine : Engine)
  | captureStall (addr : Nat) (epoch : Word)
  | epochBroken (epoch : Word) (cause : BreakCause)
  | journalLow (free : Nat)
  | portError (op : PortOperation) (addr : Nat)
  | rollbackDone (target newEpoch : Word)
  | rollbackHalted (cause : HaltCause) (slot : Nat)
  | formatDone (failed : Bool)
  | recoverDone (outcome : RecoverOutcome) (epochs records : Nat)
deriving DecidableEq, Repr

/-- One entry of the notice list: the count and the first occurrence's kind and detail (R173). -/
structure NoticeEntry where
  count : Nat
  notice : Notice
deriving DecidableEq, Repr

/-- The notice list, oldest first, and the notice mask (R173, R175). -/
structure NoticeUnit where
  list : List NoticeEntry
  mask : BitVec 12
deriving DecidableEq, Repr

/-! ## Transit Controller (chapter 2) -/

/-- The effective action of an access (R8, R10). A capture-governed read has the action capture (R9). -/
inductive Action where
  | guard | capture | mark | captureMark | pass
deriving DecidableEq, Repr

/-- What the Region Matcher hands over (R10). -/
structure MatchResult where
  action : Action
  guardRegion : Option Nat
deriving DecidableEq, Repr

/-- The transit states other than IDLE (R26); IDLE is "no access in progress". -/
inductive Stage where
  | forward | readOld | writeRecord | waitMarker | waitSpace | waitHeader | answer
deriving DecidableEq, Repr

/-- What a change of engine state has done to a forward under way (R37): nothing, cut after the beat already
presented, or left to complete because every beat had been presented. -/
inductive Cut where
  | no | afterBeat | completes
deriving DecidableEq, Repr

/-- A slot given by an allocation, with its sequence number (R32, R68). -/
structure SlotGrant where
  slot : Nat
  sequence : Word
deriving DecidableEq, Repr

/-- The one access in progress (R26). -/
structure Access where
  /-- UA[25:2] -/
  ua : BitVec 24
  write : Bool
  burst : Bool
  priv : Bool
  result : MatchResult
  /-- The engine state read at the arrival. -/
  engineAt : Engine
  stage : Stage
  /-- Beats acknowledged. -/
  acked : Nat
  slot : Option SlotGrant
  /-- Old-data bursts read, 0 to 4 (R33). -/
  oldBursts : Nat
  /-- Bursts of the UNDO record written, 0 to 6 (R73). -/
  recBursts : Nat
  /-- The UNDO record as composed (R73), empty before. -/
  record : List Byte
  cut : Cut
deriving DecidableEq, Repr

/-- One beat as answered on the U-port (R21, R22): URDY of a write beat, URDY with UD of a read beat, or UERR with what
the part drives on UD beside it: a word on a read, nothing on a write. -/
inductive UBeat where
  | rdy
  | data (ud : Word)
  | err (ud : Option Word)
deriving DecidableEq, Repr

/-- What claimed a cut (R92). -/
inductive CutBy where
  | checkpoint | mark
deriving DecidableEq, Repr

/-- The list of claims waiting for the access boundary: at most one of each kind (R39). -/
structure Claims where
  commit : Bool
  cut : Option CutBy
  start : Option Word
deriving DecidableEq, Repr

/-- The full-journal mode (R103). -/
inductive FullMode where
  | stall | brk
deriving DecidableEq, Repr

/-- The Transit Controller (R26, R39, R44, R45, R103). -/
structure Transit where
  access : Option Access
  buffer : List Byte
  claims : Claims
  /-- The hold timer: none when stopped. At 0 it has expired and the expiry is still to be handed over (log 6). -/
  timer : Option Nat
  fullMode : FullMode
  holdLimit : Nat
  clockRate : Nat
  /-- CLK periods of the tick in progress. -/
  tickLength : Nat
  /-- The beats answered for the present or last access. -/
  answers : List UBeat
deriving DecidableEq, Repr

/-! ## Capture Map unit (chapter 3) -/

inductive MapId where
  | m0 | m1
deriving DecidableEq, Repr

inductive MapState where
  | dirty | sweeping | clean | active
deriving DecidableEq, Repr

/-- A capture map (R47, R48): its state, and the indexes of the bits that are set, rising. -/
structure CaptureMap where
  state : MapState
  bits : List Nat
deriving DecidableEq, Repr

/-- A running sweep: the map, and how many bits it clears (the bits in use of the window it was started under). -/
structure Sweep where
  map : MapId
  bits : Nat
deriving DecidableEq, Repr

structure CaptureMaps where
  m0 : CaptureMap
  m1 : CaptureMap
  window : Option Window
  running : Option Sweep
  queued : Option MapId
deriving DecidableEq, Repr

/-! ## Journal Controller (chapter 4) -/

/-- The journal geometry (R63). -/
structure Geometry where
  identity : Word
  slotCount : Nat
  window : Window
deriving DecidableEq, Repr

/-- Who asked for a MARKER (R74). -/
inductive MarkerPurpose where
  | cut | format | reopen
deriving DecidableEq, Repr

/-- A MARKER write in flight (R74). -/
structure MarkerJob where
  epoch : Word
  slot : Nat
  purpose : MarkerPurpose
  cause : Cause
  merged : Nat
  record : List Byte
  bursts : Nat
deriving DecidableEq, Repr

/-- The marker write state (R74). -/
inductive MarkerWrite where
  | none
  | inFlight (job : MarkerJob)
  | failed (epoch : Word) (slot : Nat)
deriving DecidableEq, Repr

/-- A request for a header write, by its requester (R77). A checkpoint's request carries what CKPT_DONE will
report (R93); a break's carries its epoch (R106). -/
inductive HeaderRequest where
  | checkpoint (epoch : Word) (cause : Cause) (slot merged : Nat)
  | release
  | brk (epoch : Word)
  | start
  /-- The start's request after an ABORT in WAIT_START: nothing waits for it any more (R130). -/
  | startAborted
  | settle
  | recover
deriving DecidableEq, Repr

/-- Header copy A or B (R60). -/
inductive Copy where
  | a | b
deriving DecidableEq, Repr

/-- What a header write belongs to: requests (R77), one of FORMAT's own copies (R141), or a journal that FORMAT
has abandoned (R140). -/
inductive HeaderKind where
  | requested | formatA | formatB | abandoned
deriving DecidableEq, Repr

/-- A header write in flight (R76). -/
structure HeaderJob where
  copy : Copy
  generation : Word
  buffer : List Byte
  bursts : Nat
  requests : List HeaderRequest
  kind : HeaderKind
deriving DecidableEq, Repr

/-- The header writer (R76, R77). -/
structure HeaderWriter where
  generation : Word
  last : Option Copy
  dirty : Bool
  next : List HeaderRequest
  inFlight : Option HeaderJob
deriving DecidableEq, Repr

/-- The claimants of the J-port, in ring order (R62). -/
inductive JClient where
  | record | marker | header | walker | recovery | readSlot
deriving DecidableEq, Repr

/-- The burst on the J-port: its claimant, its J address, the 16 bytes of a write, and whether the claimant still
wants it (R42, R62: a burst already granted runs to its end and its result is disregarded). -/
structure JBurst where
  client : JClient
  addr : Nat
  data : Option (List Byte)
  live : Bool
deriving DecidableEq, Repr

/-- The J-port arbiter (R62). -/
structure JPort where
  last : JClient
  burst : Option JBurst
deriving DecidableEq, Repr

/-- A READ_SLOT under way (R80). -/
structure ReadSlotJob where
  slot : Nat
  buffer : List Byte
deriving DecidableEq, Repr

/-- The Journal Controller. -/
structure Journal where
  geometry : Option Geometry
  head : Nat
  tail : Nat
  occupied : Nat
  held : Nat
  sequence : Word
  marker : MarkerWrite
  header : HeaderWriter
  lowWater : Nat
  jport : JPort
  readSlot : Option ReadSlotJob
deriving DecidableEq, Repr

/-! ## Epoch Controller (chapters 5, 7 and 8) -/

/-- An entry of the epoch table: the fields of R83. The marks merged that R91 and R92 speak of stand in the MARKER's job
and the checkpoint's header request instead (the model's choice, log 27). -/
structure Entry where
  epoch : Word
  slot : Nat
  sequence : Word
  undo : Nat
  cause : Cause
deriving DecidableEq, Repr

inductive WalkerState where
  | stopped | waitStart | read | writeBack | reopen
deriving DecidableEq, Repr

/-- The rollback walker (R121). `expected` is the index in the epoch table of the expected entry. -/
structure Walker where
  state : WalkerState
  target : Word
  cursor : Nat
  sequence : Word
  expected : Nat
  buffer : List Byte
  bursts : Nat
  abort : Bool
deriving DecidableEq, Repr

/-- The stages of FORMAT (R141). -/
inductive FormatStage where
  | idle | sweep | marker | copyA | copyB
deriving DecidableEq, Repr

/-- A header copy as read back (R184). -/
structure Header where
  sizeCode : Nat
  generation : Word
  identity : Word
  slotCount : Nat
  windowBase : Nat
  headSlot : Nat
  headSequence : Word
  headEpoch : Word
  latestBroken : Word
  pendingTarget : Word
deriving DecidableEq, Repr

/-- What the scan holds (R148, R150, R151): the entries of the MARKERs accepted, oldest first, with the UNDO records
counted so far; the records accepted; the slot to read next; the previous record's epoch and sequence; whether a
REOPEN marker of the recorded target was accepted (R152). -/
structure Scan where
  entries : List Entry
  records : Nat
  slot : Nat
  epoch : Word
  sequence : Word
  reopened : Bool
deriving DecidableEq, Repr

/-- Where the map load stands (R57): next slot, slots left, next sequence. -/
structure MapLoad where
  slot : Nat
  left : Nat
  sequence : Word
deriving DecidableEq, Repr

/-- The stages of RECOVER (R145 to R152), with the bytes read of the present copy or slot. -/
inductive RecoveryStage where
  | idle
  | copies (buffer : List Byte)
  | sweep (h : Header)
  | scan (h : Header) (scan : Scan) (buffer : List Byte)
  | load (h : Header) (scan : Scan) (load : MapLoad) (buffer : List Byte)
  | header (h : Header) (scan : Scan)
deriving DecidableEq, Repr

/-- The Epoch Controller (section 5, R81). -/
structure EpochController where
  engine : Engine
  table : List Entry
  ckptInFlight : Bool
  pendingMark : Nat
  lastUsed : Word
  latestBroken : Word
  breakRecording : Bool
  pendingTarget : Word
  startClaimed : Bool
  walker : Walker
  /-- The header request of R135 has completed. -/
  settleDone : Bool
  format : FormatStage
  recovery : RecoveryStage
deriving DecidableEq, Repr

/-! ## D-port interface (R43) -/

inductive DClient where
  | transit | walker
deriving DecidableEq, Repr

/-- The burst on the D-port: the Transit Controller's (its data is the access in progress), or a write-back with its
address and 16 bytes. -/
inductive DBurst where
  | transit
  | walker (addr : Nat) (data : List Byte)
deriving DecidableEq, Repr

structure DPort where
  last : DClient
  burst : Option DBurst
deriving DecidableEq, Repr

/-! ## Link Interface (chapter 9) -/

/-- The receive framer (R159). -/
inductive Framer where
  | idle | first | code | tag | length | params | check | discard
deriving DecidableEq, Repr

/-- The response slot (R162). -/
inductive Slot where
  | empty
  | executing (code tag : Byte) (lost : Bool)
  | ready (tag : Byte) (status : Status) (data : List Byte) (lost : Bool)
deriving DecidableEq, Repr

structure Link where
  framer : Framer
  slot : Slot
  /-- The response frame on MSO in this transaction; empty: MSO carries FFh (R165). -/
  mso : List Byte
  /-- Bytes of this transaction completed at its last event (R167). -/
  clocked : Nat
  /-- A frame was lost in this transaction (R166). -/
  lostHere : Bool
deriving DecidableEq, Repr

/-! ## The whole machine -/

/-- A memory of bytes in canonical form: addresses strictly rising, no byte equal to what an unlisted address
reads as (log 2). -/
abbrev Memory := List Host.Cell

/-- The state of the WJ-2240, of its two memories, and the queue of waiting commands. -/
structure State where
  /-- PORn is asserted. -/
  porn : Bool
  /-- SRSTn is asserted. -/
  srstn : Bool
  regions : RegionMatcher
  transit : Transit
  maps : CaptureMaps
  journal : Journal
  epochs : EpochController
  dport : DPort
  link : Link
  notices : NoticeUnit
  /-- The protected memory. -/
  dmem : Memory
  /-- The journal memory. -/
  jmem : Memory
  /-- The model's own: names the next free value (log 8). -/
  fresh : Nat
  /-- The commands waiting, first in first out. -/
  pending : List Instr
deriving DecidableEq, Repr

/-- The block never stops with a fault: its errors are DERR and JERR of its partners, and the manual gives each a
next state (INVENTORY.md, Faults). There is no constructor. -/
inductive Fault where
deriving DecidableEq, Repr

/-- Why a command is refused. -/
inductive Refusal where
  /-- Raised by an arm of exec for a command that has no meaning yet; safe. No arm raises it. -/
  | notModelled (mnemonic : String)
deriving DecidableEq, Repr

/-! ## The power-on values -/

def RegionMatcher.powerOn : RegionMatcher :=
  ⟨Vector.replicate 12 Region.powerOn, Vector.replicate 12 Region.powerOn⟩

def Claims.none : Claims := ⟨false, Option.none, Option.none⟩

/-- R46, R103. -/
def Transit.powerOn : Transit where
  access := none
  buffer := []
  claims := Claims.none
  timer := none
  fullMode := .stall
  holdLimit := 500
  clockRate := 100
  tickLength := 100
  answers := []

/-- R59. -/
def CaptureMaps.powerOn : CaptureMaps where
  m0 := ⟨.dirty, []⟩
  m1 := ⟨.dirty, []⟩
  window := none
  running := none
  queued := none

/-- R76. -/
def HeaderWriter.powerOn : HeaderWriter := ⟨0, none, false, [], none⟩

/-- R62, R63, R66, R67, R74, R103. -/
def Journal.powerOn : Journal where
  geometry := none
  head := 0
  tail := 0
  occupied := 0
  held := 0
  sequence := 0
  marker := .none
  header := HeaderWriter.powerOn
  lowWater := 32
  jport := ⟨.readSlot, none⟩
  readSlot := none

/-- R121. -/
def Walker.powerOn : Walker := ⟨.stopped, 0, 0, 0, 0, [], 0, false⟩

/-- R81, R106, R120. -/
def EpochController.powerOn : EpochController where
  engine := .offline
  table := []
  ckptInFlight := false
  pendingMark := 0
  lastUsed := 0
  latestBroken := 0
  breakRecording := false
  pendingTarget := 0
  startClaimed := false
  walker := Walker.powerOn
  settleDone := false
  format := .idle
  recovery := .idle

/-- R43. -/
def DPort.powerOn : DPort := ⟨.walker, none⟩

/-- R162. -/
def Link.powerOn : Link := ⟨.idle, .empty, [], 0, false⟩

/-- R173, R175. -/
def NoticeUnit.powerOn : NoticeUnit := ⟨[], 0⟩

/-- The machine right after power-on reset, PORn and SRSTn released (R46, R81; logs 2, 9 to 12 for what the manual
gives no value). -/
def State.reset : State where
  porn := false
  srstn := false
  regions := RegionMatcher.powerOn
  transit := Transit.powerOn
  maps := CaptureMaps.powerOn
  journal := Journal.powerOn
  epochs := EpochController.powerOn
  dport := DPort.powerOn
  link := Link.powerOn
  notices := NoticeUnit.powerOn
  dmem := []
  jmem := []
  fresh := 0
  pending := []

/-! ## Updates of one block -/

def State.setPorn (s : State) (x : Bool) : State := { s with porn := x }
def State.setSrstn (s : State) (x : Bool) : State := { s with srstn := x }
def State.setRegions (s : State) (x : RegionMatcher) : State := { s with regions := x }
def State.setTransit (s : State) (x : Transit) : State := { s with transit := x }
def State.setMaps (s : State) (x : CaptureMaps) : State := { s with maps := x }
def State.setJournal (s : State) (x : Journal) : State := { s with journal := x }
def State.setEpochs (s : State) (x : EpochController) : State := { s with epochs := x }
def State.setDport (s : State) (x : DPort) : State := { s with dport := x }
def State.setLink (s : State) (x : Link) : State := { s with link := x }
def State.setNotices (s : State) (x : NoticeUnit) : State := { s with notices := x }
def State.setDmem (s : State) (x : Memory) : State := { s with dmem := x }
def State.setJmem (s : State) (x : Memory) : State := { s with jmem := x }
def State.setFresh (s : State) (x : Nat) : State := { s with fresh := x }
def State.setPending (s : State) (x : List Instr) : State := { s with pending := x }

end Sys2Proof.Machine
end

