-- ==== Sys2Proof/Machine/Formats.lean ====
section
/-! DEFINITION. Byte order, check codes, record and header layouts, and the codes of reported enumerations
(chapter 11, R65, R75). -/

namespace Sys2Proof.Machine

/-! ## Byte order -/

/-- A number of `n` bytes, most significant byte first (R185). -/
def beBytes (n : Nat) (x : Nat) : List Byte :=
  match n with
  | 0 => []
  | k + 1 => BitVec.ofNat 8 (x / 256 ^ k) :: beBytes k x

/-- A number of `n` bytes, least significant byte first (R183). -/
def leBytes (n : Nat) (x : Nat) : List Byte :=
  match n with
  | 0 => []
  | k + 1 => BitVec.ofNat 8 x :: leBytes k (x / 256)

def be16 (w : BitVec 16) : List Byte := beBytes 2 w.toNat
def be32 (w : Word) : List Byte := beBytes 4 w.toNat
def le32 (w : Word) : List Byte := leBytes 4 w.toNat

/-- The number a list of bytes spells, most significant byte first. -/
def ofBe (bs : List Byte) : Nat := bs.foldl (fun acc b => acc * 256 + b.toNat) 0

/-- The number a list of bytes spells, least significant byte first. -/
def ofLe (bs : List Byte) : Nat :=
  match bs with
  | [] => 0
  | b :: t => b.toNat + 256 * ofLe t

/-- `n` bytes of a list from an offset. -/
def field (bs : List Byte) (off n : Nat) : List Byte := (bs.drop off).take n

def fieldLe (bs : List Byte) (off n : Nat) : Nat := ofLe (field bs off n)
def fieldBe (bs : List Byte) (off n : Nat) : Nat := ofBe (field bs off n)
def wordLe (bs : List Byte) (off : Nat) : Word := BitVec.ofNat 32 (fieldLe bs off 4)
def wordBe (bs : List Byte) (off : Nat) : Word := BitVec.ofNat 32 (fieldBe bs off 4)
def byteAt (bs : List Byte) (off : Nat) : Byte := bs.getD off 0

/-- `n` zero bytes. -/
def zeros (n : Nat) : List Byte := List.replicate n 0

/-! ## Check codes (section 11.2) -/

/-- One shift of the CRC-16 register. -/
def crc16Shift (r : BitVec 16) : BitVec 16 :=
  if r.msb then (r <<< 1) ^^^ 0x1021 else r <<< 1

/-- One byte into the CRC-16 register: combined into the upper eight bits, then eight shifts. -/
def crc16Byte (r : BitVec 16) (b : Byte) : BitVec 16 :=
  crc16Shift (crc16Shift (crc16Shift (crc16Shift (crc16Shift (crc16Shift (crc16Shift (crc16Shift
    (r ^^^ ((b.setWidth 16) <<< 8)))))))))

/-- The CRC-16 of R65. -/
def crc16 (bs : List Byte) : BitVec 16 := bs.foldl crc16Byte 0xFFFF

/-- One shift of the CRC-8 register. -/
def crc8Shift (r : Byte) : Byte := if r.msb then (r <<< 1) ^^^ 0x07 else r <<< 1

/-- One byte into the CRC-8 register. -/
def crc8Byte (r b : Byte) : Byte :=
  crc8Shift (crc8Shift (crc8Shift (crc8Shift (crc8Shift (crc8Shift (crc8Shift (crc8Shift (r ^^^ b))))))))

/-- The CRC-8 of R159. -/
def crc8 (bs : List Byte) : Byte := bs.foldl crc8Byte 0

/-- The bytes the CRC-8 of a command frame covers (R159). -/
def frameChecked (code : Byte) (f : Frame) : List Byte :=
  code :: f.tag :: BitVec.ofNat 8 f.params.length :: f.params

/-- The received CRC-8 agrees (R161). -/
def frameCheckOk (code : Byte) (f : Frame) : Bool := f.check == crc8 (frameChecked code f)

/-! ## Codes of reported enumerations (R183, R186, R187) -/

def Status.code (x : Status) : Byte :=
  match x with
  | .ok => 0x00 | .accepted => 0x01 | .busy => 0x02 | .wrongState => 0x03 | .badCheck => 0x04
  | .badCommand => 0x05 | .badLength => 0x06 | .badParam => 0x07 | .badRegion => 0x08
  | .journalFull => 0x09 | .epochsFull => 0x0A | .sweepBusy => 0x0B | .ckptInFlight => 0x0C
  | .notRetained => 0x0D | .unrestorable => 0x0E | .epochLimit => 0x0F | .empty => 0x10 | .jError => 0x11

def Engine.code (x : Engine) : Byte :=
  match x with
  | .offline => 0x00 | .formatting => 0x01 | .recovering => 0x02 | .journaling => 0x03
  | .rollingBack => 0x04 | .settling => 0x05 | .held => 0x06 | .faulted => 0x07

def Stage.code (x : Stage) : Byte :=
  match x with
  | .forward => 0x01 | .readOld => 0x02 | .writeRecord => 0x03 | .waitMarker => 0x04
  | .waitSpace => 0x05 | .waitHeader => 0x06 | .answer => 0x07

def MapState.code (x : MapState) : Byte :=
  match x with
  | .dirty => 0x00 | .sweeping => 0x01 | .clean => 0x02 | .active => 0x03

def WalkerState.code (x : WalkerState) : Byte :=
  match x with
  | .stopped => 0x00 | .waitStart => 0x01 | .read => 0x02 | .writeBack => 0x03 | .reopen => 0x04

def MarkerWrite.code (x : MarkerWrite) : Byte :=
  match x with
  | .none => 0x00 | .inFlight _ => 0x01 | .failed _ _ => 0x02

def Cause.code (x : Cause) : Byte :=
  match x with
  | .format => 0x01 | .manual => 0x02 | .mark => 0x03 | .manualAndMark => 0x04 | .reopen => 0x05

/-- The cause a MARKER's cause byte stands for (R183). -/
def Cause.ofCode (b : Byte) : Option Cause :=
  match b.toNat with
  | 1 => some .format | 2 => some .manual | 3 => some .mark | 4 => some .manualAndMark | 5 => some .reopen
  | _ => none

def RegionClass.code (x : RegionClass) : Byte :=
  match x with
  | .normal => 0x00 | .privileged => 0x01 | .either => 0x02

def RegionClass.ofCode (b : Byte) : Option RegionClass :=
  match b.toNat with
  | 0 => some .normal | 1 => some .privileged | 2 => some .either
  | _ => none

def Policy.code (x : Policy) : Byte :=
  match x with
  | .capture => 0x00 | .exempt => 0x01 | .guard => 0x02 | .mark => 0x03

def Policy.ofCode (b : Byte) : Option Policy :=
  match b.toNat with
  | 0 => some .capture | 1 => some .exempt | 2 => some .guard | 3 => some .mark
  | _ => none

def FullMode.code (x : FullMode) : Byte :=
  match x with
  | .stall => 0x00 | .brk => 0x01

def FullMode.ofCode (b : Byte) : Option FullMode :=
  match b.toNat with
  | 0 => some .stall | 1 => some .brk
  | _ => none

def BreakCause.code (x : BreakCause) : Byte :=
  match x with
  | .fullBreak => 0x01 | .holdExpired => 0x02

def HaltCause.code (x : HaltCause) : Byte :=
  match x with
  | .aborted => 0x01 | .badRecord => 0x02 | .dError => 0x03 | .jError => 0x04

def RecoverOutcome.code (x : RecoverOutcome) : Byte :=
  match x with
  | .restored => 0x00 | .restoredHeld => 0x01 | .noJournal => 0x02 | .badJournal => 0x03
  | .windowConflict => 0x04 | .jError => 0x05

def PortOperation.code (x : PortOperation) : Byte :=
  match x with
  | .oldDataRead => 0x01 | .recordWrite => 0x02 | .markerWrite => 0x03 | .headerWrite => 0x04

/-- The port a PORT_ERROR names: 01h D, 02h J (R180). -/
def PortOperation.port (x : PortOperation) : Byte :=
  match x with
  | .oldDataRead => 0x01 | .recordWrite => 0x02 | .markerWrite => 0x02 | .headerWrite => 0x02

def Bool.code (b : Bool) : Byte := if b then 0x01 else 0x00

def Copy.code (x : Copy) : Byte :=
  match x with
  | .a => 0x01 | .b => 0x02

def MapId.code (x : MapId) : Byte :=
  match x with
  | .m0 => 0x01 | .m1 => 0x02

/-! ## Notices (R187) -/

/-- The notice kind codes, 1 to 12. -/
def Notice.kind (n : Notice) : Nat :=
  match n with
  | .ckptDone _ _ _ _ => 1
  | .markDeferred _ => 2
  | .guardHit _ _ _ => 3
  | .refusedAccess _ _ _ => 4
  | .captureStall _ _ => 5
  | .epochBroken _ _ => 6
  | .journalLow _ => 7
  | .portError _ _ => 8
  | .rollbackDone _ _ => 9
  | .rollbackHalted _ _ => 10
  | .formatDone _ => 11
  | .recoverDone _ _ _ => 12

/-- The detail fields of a notice, in order (R187). -/
def Notice.detail (n : Notice) : List Byte :=
  match n with
  | .ckptDone epoch cause slot merged => be32 epoch ++ [cause.code] ++ beBytes 4 slot ++ beBytes 1 merged
  | .markDeferred reason => [reason.code]
  | .guardHit addr priv region => beBytes 4 addr ++ [Bool.code priv] ++ beBytes 1 region
  | .refusedAccess addr write engine => beBytes 4 addr ++ [Bool.code write, engine.code]
  | .captureStall addr epoch => beBytes 4 addr ++ be32 epoch
  | .epochBroken epoch cause => be32 epoch ++ [cause.code]
  | .journalLow free => beBytes 4 free
  | .portError op addr => [op.port, op.code] ++ beBytes 4 addr
  | .rollbackDone target newEpoch => be32 target ++ be32 newEpoch
  | .rollbackHalted cause slot => [cause.code] ++ beBytes 4 slot
  | .formatDone failed => [Bool.code failed]
  | .recoverDone outcome epochs records => [outcome.code] ++ beBytes 1 epochs ++ beBytes 4 records

/-- The 12 data bytes of READ_NOTICE (R187). -/
def NoticeEntry.bytes (e : NoticeEntry) : List Byte :=
  beBytes 1 e.notice.kind ++ beBytes 1 e.count ++ e.notice.detail ++ zeros (10 - e.notice.detail.length)

/-! ## Journal layouts (R60, R183, R184) -/

/-- The J address of slot i (R60). -/
def slotAddr (i : Nat) : Nat := 0x100 + 96 * i

/-- The J address of a header copy (R60). -/
def copyAddr (c : Copy) : Nat :=
  match c with
  | .a => 0x00
  | .b => 0x80

/-- Kind codes of records (R183). -/
def kindUndo : Byte := 0x01
def kindMarker : Byte := 0x02

/-- The fields of a record, as bytes and numbers (R183). The kind and cause are the bytes read. -/
structure Record where
  kind : Byte
  cause : Byte
  check : BitVec 16
  identity : Word
  sequence : Word
  epoch : Word
  granule : Nat
  reopenedFrom : Word
  merged : Byte
  old : List Byte
deriving DecidableEq, Repr

/-- The 96 bytes of a record's fields, with the given check field (R183). -/
def Record.layout (r : Record) (check : BitVec 16) : List Byte :=
  [r.kind, r.cause] ++ leBytes 2 check.toNat ++ le32 r.identity ++ le32 r.sequence ++ le32 r.epoch
    ++ leBytes 4 r.granule ++ le32 r.reopenedFrom ++ [r.merged] ++ zeros 7 ++ r.old

/-- A record as written: the check is the CRC-16 over the 96 bytes with the check field zero (R65). -/
def Record.encode (r : Record) : List Byte := r.layout (crc16 (r.layout 0))

/-- The fields of 96 bytes as read (R183). -/
def Record.decode (bs : List Byte) : Record where
  kind := byteAt bs 0
  cause := byteAt bs 1
  check := BitVec.ofNat 16 (fieldLe bs 2 2)
  identity := wordLe bs 4
  sequence := wordLe bs 8
  epoch := wordLe bs 12
  granule := fieldLe bs 16 4
  reopenedFrom := wordLe bs 20
  merged := byteAt bs 24
  old := field bs 32 64

/-- An UNDO record (R34, R64). -/
def undoRecord (identity sequence epoch : Word) (granule : Nat) (old : List Byte) : List Byte :=
  Record.encode ⟨kindUndo, 0, 0, identity, sequence, epoch, granule, 0, 0, old⟩

/-- A MARKER (R64). -/
def markerRecord (identity sequence epoch : Word) (cause : Cause) (merged : Nat) (reopenedFrom : Word) : List Byte :=
  Record.encode ⟨kindMarker, cause.code, 0, identity, sequence, epoch, 0, reopenedFrom, BitVec.ofNat 8 merged,
    zeros 64⟩

/-- The verdicts of a reader of a slot (R65). -/
inductive Verdict where
  | valid | checkFailed | foreign | malformed
deriving DecidableEq, Repr

def Verdict.code (v : Verdict) : Byte :=
  match v with
  | .valid => 0x00 | .checkFailed => 0x01 | .foreign => 0x02 | .malformed => 0x03

/-- The bytes with the two at `off` taken as zero. -/
def clearCheck (bs : List Byte) (off : Nat) : List Byte := bs.take off ++ [0, 0] ++ bs.drop (off + 2)

/-- The third test of R65. -/
def Record.wellFormed (r : Record) : Bool :=
  r.epoch != 0 &&
    (if r.kind = kindUndo then decide (r.granule % 64 = 0)
     else if r.kind = kindMarker then
       match Cause.ofCode r.cause with
       | some .reopen => r.reopenedFrom != 0
       | some _ => r.reopenedFrom == 0
       | none => false
     else false)

/-- The verdict of R65 on 96 bytes; without an identity the second test is not made (R80). -/
def verdict (identity : Option Word) (bs : List Byte) : Verdict :=
  let r := Record.decode bs
  if r.check ≠ crc16 (clearCheck bs 2) then .checkFailed
  else if identity.any (fun i => decide (r.identity ≠ i)) then .foreign
  else if r.wellFormed then .valid
  else .malformed

/-- The format tag of a header copy (R184). -/
def headerTag : List Byte := [0x57, 0x4A, 0x48, 0x31]

/-- The 128 bytes of a header copy with the given check field (R184). -/
def Header.layout (h : Header) (check : BitVec 16) : List Byte :=
  headerTag ++ leBytes 2 check.toNat ++ leBytes 1 h.sizeCode ++ zeros 1 ++ le32 h.generation ++ le32 h.identity
    ++ leBytes 4 h.slotCount ++ leBytes 4 h.windowBase ++ leBytes 4 h.headSlot ++ le32 h.headSequence
    ++ le32 h.headEpoch ++ le32 h.latestBroken ++ le32 h.pendingTarget ++ zeros 84

/-- A header copy as written (R75). -/
def Header.encode (h : Header) : List Byte := h.layout (crc16 (h.layout 0))

/-- The fields of 128 bytes as read (R184). -/
def Header.decode (bs : List Byte) : Header where
  sizeCode := fieldLe bs 6 1
  generation := wordLe bs 8
  identity := wordLe bs 12
  slotCount := fieldLe bs 16 4
  windowBase := fieldLe bs 20 4
  headSlot := fieldLe bs 24 4
  headSequence := wordLe bs 28
  headEpoch := wordLe bs 32
  latestBroken := wordLe bs 36
  pendingTarget := wordLe bs 40

/-- A copy read back is valid when its tag is the fixed value and its check agrees (R75). -/
def headerValid (bs : List Byte) : Bool :=
  decide (field bs 0 4 = headerTag) && decide (BitVec.ofNat 16 (fieldLe bs 4 2) = crc16 (clearCheck bs 4))

end Sys2Proof.Machine
end

