-- ==== Sys2Proof/Machine/Operands.lean ====
section
/-! DEFINITION. The operands of accesses and frames: addresses and granules, the region compare and the effective
action (chapter 1), the containment test (R15), and the parameters of command frames (R185). -/

namespace Sys2Proof.Machine

/-! ## Addresses (R3, R47) -/

/-- The byte address of an access's first word. -/
def byteAddr (ua : BitVec 24) : Nat := 4 * ua.toNat

/-- The region address: address bits 25 to 10 (R3). -/
def regionAddr (ua : BitVec 24) : BitVec 16 := ua.extractLsb' 8 16

/-- The granule of a byte address (R47). -/
def granuleOf (a : Nat) : Nat := a / 64 * 64

/-- The window's size in bytes (R47). -/
def Window.size (w : Window) : Nat := 2 ^ (20 + w.code)

/-- The bits in use of a map under a window (R47). -/
def Window.bits (w : Window) : Nat := 2 ^ (14 + w.code)

def Window.contains (w : Window) (a : Nat) : Bool := decide (w.base ≤ a) && decide (a < w.base + w.size)

/-- A granule's bit index (R47). -/
def Window.index (w : Window) (a : Nat) : Nat := (a - w.base) / 64

/-- A burst not aligned to 16 bytes is malformed (R23). -/
def malformed (burst : Bool) (ua : BitVec 24) : Bool := burst && decide (ua.toNat % 4 ≠ 0)

/-- Beats of an access (R21). -/
def beatsOf (burst : Bool) : Nat := if burst then 4 else 1

/-! ## The match (R3, R6, R8, R9) -/

/-- The class filter (R6). -/
def RegionClass.admits (c : RegionClass) (priv : Bool) : Bool :=
  match c with
  | .normal => !priv
  | .privileged => priv
  | .either => true

/-- A region matches an access (R3). -/
def Region.hits (r : Region) (ua : BitVec 24) (priv : Bool) : Bool :=
  r.enabled && r.cls.admits priv && decide ((regionAddr ua ^^^ r.base) &&& ~~~r.mask = 0)

/-- Some region of the table with the policy matches. -/
def anyHit (t : Vector Region 12) (p : Policy) (ua : BitVec 24) (priv : Bool) : Bool :=
  t.toList.any fun r => decide (r.policy = p) && r.hits ua priv

/-- The lowest-numbered matching GUARD region (R10). -/
def guardHit (t : Vector Region 12) (ua : BitVec 24) (priv : Bool) : Option Nat :=
  t.toList.findIdx? fun r => decide (r.policy = .guard) && r.hits ua priv

/-- The effective action (R8 for writes, R9 for reads) and the GUARD region reported (R10). -/
def matchAccess (t : Vector Region 12) (ua : BitVec 24) (write priv : Bool) : MatchResult :=
  let captured := anyHit t .capture ua priv && !anyHit t .exempt ua priv
  if write then
    match guardHit t ua priv with
    | some i => ⟨.guard, some i⟩
    | none =>
      match captured, anyHit t .mark ua priv with
      | true, true => ⟨.captureMark, none⟩
      | true, false => ⟨.capture, none⟩
      | false, true => ⟨.mark, none⟩
      | false, false => ⟨.pass, none⟩
  else if captured then ⟨.capture, none⟩ else ⟨.pass, none⟩

/-- The action includes capture: the access is capture-governed (R8, R9). -/
def Action.governed (a : Action) : Bool :=
  match a with
  | .capture => true
  | .captureMark => true
  | .guard => false
  | .mark => false
  | .pass => false

/-- The action includes mark (R38). -/
def Action.marks (a : Action) : Bool :=
  match a with
  | .mark => true
  | .captureMark => true
  | .guard => false
  | .capture => false
  | .pass => false

/-- The engine states that refuse capture-governed accesses (R27). -/
def Engine.refuses (e : Engine) : Bool :=
  match e with
  | .offline => false
  | .journaling => false
  | .formatting => true
  | .recovering => true
  | .rollingBack => true
  | .settling => true
  | .held => true
  | .faulted => true

/-! ## The containment test (R15) -/

/-- An enabled CAPTURE region lies inside the window: for every address bit from w to 25, the mask bit is zero and
the base bit equals the window base's. Every other region passes. -/
def Region.contained (r : Region) (w : Window) : Bool :=
  !r.enabled || decide (r.policy ≠ .capture) ||
    (List.range (26 - (20 + w.code))).all fun i =>
      let j := 20 + w.code + i
      !r.mask.getLsbD (j - 10) && (r.base.getLsbD (j - 10) == w.base.testBit j)

/-- The first region that fails the containment test (R16). -/
def firstOutside (t : Vector Region 12) (w : Window) : Option Nat :=
  t.toList.findIdx? fun r => !r.contained w

/-! ## Parameters of command frames (R185) -/

/-- The fixed parameter length of each command code (R185). -/
def paramLength (code : Byte) : Option Nat :=
  match code.toNat with
  | 0x01 => some 0
  | 0x02 => some 0
  | 0x03 => some 8
  | 0x04 => some 1
  | 0x05 => some 0
  | 0x06 => some 0
  | 0x07 => some 10
  | 0x08 => some 13
  | 0x09 => some 0
  | 0x0A => some 0
  | 0x0B => some 4
  | 0x0C => some 4
  | 0x0D => some 0
  | 0x0E => some 0
  | 0x0F => some 0
  | 0x10 => some 4
  | _ => none

/-- 00h no, 01h yes. -/
def boolOfCode (b : Byte) : Option Bool :=
  match b.toNat with
  | 0 => some false
  | 1 => some true
  | _ => none

/-- A region index 0 to 11 (R11, R12). -/
def regionIndex (b : Byte) : Option (Fin 12) := if h : b.toNat < 12 then some ⟨b.toNat, h⟩ else none

/-- WRITE_REGION: index, enabled, base, mask, class, policy, or none where R11 refuses a parameter. -/
def writeRegionParams (p : List Byte) : Option (Fin 12 × Region) :=
  match regionIndex (byteAt p 0), boolOfCode (byteAt p 1), RegionClass.ofCode (byteAt p 6),
      Policy.ofCode (byteAt p 7) with
  | some i, some e, some c, some q =>
    some (i, ⟨e, BitVec.ofNat 16 (fieldBe p 2 2), BitVec.ofNat 16 (fieldBe p 4 2), c, q⟩)
  | _, _, _, _ => none

/-- The parameters of SET_POLICY (R171). -/
structure PolicyParams where
  fullMode : FullMode
  holdLimit : Nat
  lowWater : Nat
  clockRate : Nat
  mask : BitVec 12
deriving DecidableEq, Repr

/-- SET_POLICY's five values, or none where one is out of range (R171, R185). -/
def setPolicyParams (p : List Byte) : Option PolicyParams :=
  let hold := fieldBe p 1 2
  let low := fieldBe p 3 4
  let clk := (byteAt p 7).toNat
  let mask := fieldBe p 8 2
  match FullMode.ofCode (byteAt p 0) with
  | some m =>
    if 1 ≤ hold ∧ low ≤ Config.maxSlotCount ∧ 20 ≤ clk ∧ clk ≤ 133 ∧ mask < 4096 then
      some ⟨m, hold, low, clk, BitVec.ofNat 12 mask⟩
    else none
  | none => none

/-- FORMAT's geometry as its parameters give it (R139, R185). -/
def formatParams (p : List Byte) : Geometry :=
  ⟨wordBe p 0, fieldBe p 4 4, ⟨fieldBe p 8 4, (byteAt p 12).toNat⟩⟩

/-- A window base that is a multiple of the window size and lies in the protected memory (R47, R139, R184). -/
def Window.aligned (w : Window) : Bool :=
  decide (w.code ≤ 4) && decide (w.base % w.size = 0) && decide (w.base < 0x4000000)

/-- Checks 3 to 6 of R139. -/
def Geometry.legal (g : Geometry) : Bool :=
  g.identity != 0 && decide (Config.minSlotCount ≤ g.slotCount) && decide (g.slotCount ≤ Config.maxSlotCount)
    && g.window.aligned

/-! ## Beats (R21, R24, R183) -/

/-- Byte lane j of a word is bits 8j+7..8j (R183). -/
def lane (w : Word) (j : Nat) : Byte := w.extractLsb' (8 * j) 8

/-- The four bytes of a word, lane 0 first. -/
def lanes (w : Word) : List Byte := [lane w 0, lane w 1, lane w 2, lane w 3]

/-- A word from its lanes. -/
def ofLanes (bs : List Byte) : Word := wordLe bs 0

end Sys2Proof.Machine
end

