-- ==== Sys2Proof/Machine/Ops.lean ====
section
/-! DEFINITION. The shared operations over the memories, the notice list, the response slot, the ring, the epoch table,
the capture maps and the header writer. -/

namespace Sys2Proof.Machine

/-! ## Memory (R60, R61, R183; log 2) -/

/-- What an address no cell lists reads as (log 2). -/
def Memory.unlisted : Byte := 0

/-- The byte at an address. -/
def Memory.read (m : Memory) (a : Nat) : Byte :=
  match m with
  | [] => Memory.unlisted
  | (k, v) :: t => if k = a then v else Memory.read t a

/-- A byte written at an address; the canonical form is kept. -/
def Memory.write (m : Memory) (a : Nat) (v : Byte) : Memory :=
  match m with
  | [] => if v = Memory.unlisted then [] else [(a, v)]
  | (k, w) :: t =>
    if a < k then (if v = Memory.unlisted then (k, w) :: t else (a, v) :: (k, w) :: t)
    else if a = k then (if v = Memory.unlisted then t else (a, v) :: t)
    else (k, w) :: Memory.write t a v

/-- Bytes written at rising addresses. -/
def Memory.writeBytes (m : Memory) (a : Nat) (bs : List Byte) : Memory :=
  match bs with
  | [] => m
  | b :: t => Memory.writeBytes (m.write a b) (a + 1) t

/-- `n` bytes read at rising addresses. -/
def Memory.readBytes (m : Memory) (a : Nat) (n : Nat) : List Byte :=
  match n with
  | 0 => []
  | k + 1 => m.read a :: Memory.readBytes m (a + 1) k

/-- The enabled lanes of a word written at a word address (R24). That byte enable j governs lane j, the bits 8j+7 to 8j,
is the model's choice (log 30). -/
def Memory.writeLanes (m : Memory) (a : Nat) (ube : BitVec 4) (w : Word) : Memory :=
  let put (m : Memory) (j : Nat) : Memory := if ube.getLsbD j then m.write (a + j) (lane w j) else m
  put (put (put (put m 0) 1) 2) 3

/-- A word read: the memory's bytes in the enabled lanes, `w`'s in the others (log 9). That byte enable j governs lane j
is the model's choice (log 30). -/
def Memory.readLanes (m : Memory) (a : Nat) (ube : BitVec 4) (w : Word) : Word :=
  let pick (j : Nat) : Byte := if ube.getLsbD j then m.read (a + j) else lane w j
  ofLanes [pick 0, pick 1, pick 2, pick 3]

/-- Addresses strictly rising from `lo`, no byte equal to what an unlisted address reads as. -/
def Memory.wfFrom (m : Memory) (lo : Nat) : Bool :=
  match m with
  | [] => true
  | (k, v) :: t => decide (lo ≤ k) && decide (v ≠ Memory.unlisted) && Memory.wfFrom t (k + 1)

/-- The canonical form (log 2). -/
def Memory.wf (m : Memory) : Bool := m.wfFrom 0

/-! ## Notices (R173 to R176) -/

/-- The kind's position in the mask is set (R175, R185). -/
def NoticeUnit.masked (u : NoticeUnit) (n : Notice) : Bool := u.mask.getLsbD (n.kind - 1)

/-- A post into a list: merged into the kind's entry, or a new entry at the newest end (R174). -/
def postList (l : List NoticeEntry) (n : Notice) : List NoticeEntry :=
  match l with
  | [] => [⟨1, n⟩]
  | e :: t => if e.notice.kind = n.kind then ⟨min 255 (e.count + 1), e.notice⟩ :: t else e :: postList t n

/-- A block posts a notice (R174). -/
def post (n : Notice) (s : State) : State :=
  if s.notices.masked n then s else s.setNotices { s.notices with list := postList s.notices.list n }

/-- ATTN (R176). -/
def State.attn (s : State) : Bool := !s.notices.list.isEmpty

/-! ## The response slot (R162, R163) -/

/-- The owner's answer fills the slot of the command being executed (R163). -/
def answer (st : Status) (data : List Byte) (s : State) : State :=
  match s.link.slot with
  | .executing _ tag lost => s.setLink { s.link with slot := .ready tag st data lost }
  | .empty => s
  | .ready _ _ _ _ => s

/-- The command EXECUTING in the slot has this code. -/
def executing (code : Byte) (s : State) : Bool :=
  match s.link.slot with
  | .executing c _ _ => c == code
  | .empty => false
  | .ready _ _ _ _ => false

/-! ## The ring (R66 to R71) -/

def State.slotCount (s : State) : Nat :=
  match s.journal.geometry with
  | some g => g.slotCount
  | none => 0

/-- Free slots (R67). -/
def State.free (s : State) : Nat := s.slotCount - s.journal.occupied

/-- The slot after and the slot before, in ring order (R67). -/
def ringNext (n i : Nat) : Nat := if i + 1 < n then i + 1 else 0
def ringPrev (n i : Nat) : Nat := if i = 0 then n - 1 else i - 1

/-- The number of slots from `i` up to `j` in ring order. -/
def ringDist (n i j : Nat) : Nat := if i ≤ j then j - i else n - i + j

/-- JOURNAL_LOW when an allocation takes free across the threshold (R115); `before` is free before it. -/
def lowWaterTest (before : Nat) (s : State) : State :=
  if s.journal.lowWater ≤ before ∧ s.free < s.journal.lowWater then post (.journalLow s.free) s else s

/-- The slot and sequence number the next allocation gives (R68). -/
def nextGrant (s : State) : SlotGrant := ⟨s.journal.tail, s.journal.sequence⟩

/-- An allocation at tail (R68). -/
def allocate (s : State) : State :=
  lowWaterTest s.free (s.setJournal { s.journal with
    tail := ringNext s.slotCount s.journal.tail
    occupied := s.journal.occupied + 1
    sequence := s.journal.sequence + 1 })

/-- A slot return (R69). -/
def returnSlot (s : State) : State :=
  s.setJournal { s.journal with
    tail := ringPrev s.slotCount s.journal.tail
    occupied := s.journal.occupied - 1
    sequence := s.journal.sequence - 1 }

/-! ## The epoch table (R83, R84) -/

/-- The current epoch: the last entry's number, 0 when the table is empty (R83, R169). -/
def State.currentEpoch (s : State) : Word :=
  match s.epochs.table.getLast? with
  | some e => e.epoch
  | none => 0

/-- The oldest retained epoch, 0 when the table is empty (R169). -/
def State.oldestEpoch (s : State) : Word :=
  match s.epochs.table.head? with
  | some e => e.epoch
  | none => 0

/-- The entry with a number. -/
def entryOf (t : List Entry) (e : Word) : Option Entry := t.find? fun x => x.epoch == e

/-- The last entry's undo count raised by one (R84). -/
def raiseLast (t : List Entry) : List Entry :=
  match t with
  | [] => []
  | [e] => [{ e with undo := e.undo + 1 }]
  | e :: t => e :: raiseLast t

/-- The current epoch is the latest broken epoch (R31, first test). -/
def currentBroken (s : State) : Bool :=
  s.currentEpoch != 0 && s.currentEpoch == s.epochs.latestBroken

/-- The MARKER write of epoch e has completed (R74). -/
def markerComplete (s : State) (e : Word) : Bool :=
  match s.journal.marker with
  | .none => true
  | .inFlight j => j.epoch != e
  | .failed x _ => x != e

/-! ## The capture maps (R47 to R56) -/

def CaptureMaps.get (m : CaptureMaps) (i : MapId) : CaptureMap :=
  match i with
  | .m0 => m.m0
  | .m1 => m.m1

def CaptureMaps.put (m : CaptureMaps) (i : MapId) (x : CaptureMap) : CaptureMaps :=
  match i with
  | .m0 => { m with m0 := x }
  | .m1 => { m with m1 := x }

def CaptureMaps.setState (m : CaptureMaps) (i : MapId) (x : MapState) : CaptureMaps :=
  m.put i { m.get i with state := x }

/-- The map in a state, M0 first. -/
def CaptureMaps.find (m : CaptureMaps) (x : MapState) : Option MapId :=
  if m.m0.state = x then some .m0 else if m.m1.state = x then some .m1 else none

/-- A bit put into a rising list of indexes. -/
def insertBit (bits : List Nat) (i : Nat) : List Nat :=
  match bits with
  | [] => [i]
  | b :: t => if i < b then i :: b :: t else if i = b then b :: t else b :: insertBit t i

/-- The bits a sweep leaves: those at or above the range it clears (R47, R53). -/
def sweptBits (bits : List Nat) (n : Nat) : List Nat := bits.filter fun i => decide (n ≤ i)

/-- The bits in use of the window held, none in use without a window (R48). -/
def CaptureMaps.bitsInUse (m : CaptureMaps) : Nat :=
  match m.window with
  | some w => w.bits
  | none => 0

/-- The bit of a byte address's granule (R47); none without a window. -/
def CaptureMaps.indexOf (m : CaptureMaps) (a : Nat) : Option Nat := m.window.map fun w => w.index a

/-- The granule's bit in the ACTIVE map is set (R50). -/
def bitSet (s : State) (a : Nat) : Bool :=
  match s.maps.find .active, s.maps.indexOf a with
  | some i, some b => (s.maps.get i).bits.contains b
  | _, _ => false

/-- The granule's bit in the ACTIVE map is set; without an ACTIVE map nothing changes (R51). -/
def setBit (m : CaptureMaps) (a : Nat) : CaptureMaps :=
  match m.find .active, m.indexOf a with
  | some i, some b => m.put i { m.get i with bits := insertBit (m.get i).bits b }
  | _, _ => m

/-- The capture stands: its bit is set and the current epoch's undo count raised, as one step (R35, R51, R84). -/
def recordCapture (a : Nat) (s : State) : State :=
  (s.setMaps (setBit s.maps a)).setEpochs { s.epochs with table := raiseLast s.epochs.table }

/-- A sweep of a map is requested (R53): it starts at once, waits in the queue, or is merged with the sweep of the
same map. Without a window it clears nothing and completes at once (R48). -/
def requestSweep (i : MapId) (m : CaptureMaps) : CaptureMaps :=
  if m.running.any (fun r => decide (r.map = i)) ∨ m.queued = some i then m.setState i .sweeping
  else if m.window = none then m.setState i .clean
  else
    match m.running with
    | none => { m.setState i .sweeping with running := some ⟨i, m.bitsInUse⟩ }
    | some _ => { m.setState i .sweeping with queued := some i }

/-- The swap of a cut (R52) and the settling swap (R55): a CLEAN map, if there is one, goes to ACTIVE; the map that
was ACTIVE goes to SWEEPING and its sweep is requested. -/
def swapMaps (m : CaptureMaps) : CaptureMaps :=
  let raised := match m.find .clean with
    | some i => m.setState i .active
    | none => m
  match m.find .active with
  | some i => requestSweep i raised
  | none => raised

/-- The running sweep ends: its map goes to CLEAN with the range cleared, and the queued sweep starts (R53, R54). -/
def endSweep (m : CaptureMaps) : CaptureMaps :=
  match m.running with
  | none => m
  | some r =>
    let cleared := m.put r.map ⟨.clean, sweptBits (m.get r.map).bits r.bits⟩
    match m.queued with
    | none => { cleared with running := none }
    | some q => { cleared with running := some ⟨q, m.bitsInUse⟩, queued := none }

/-- A new window is installed and a sweep of both maps requested, M0 first (R53, R56, R57). -/
def installWindow (w : Window) (m : CaptureMaps) : CaptureMaps :=
  requestSweep .m1 (requestSweep .m0 { m with window := some w })

/-! ## The header writer (R75 to R78) -/

/-- The header of the state at hand, with a generation (R75). -/
def headerOf (s : State) (generation : Word) : Header :=
  let g := s.journal.geometry.getD ⟨0, 0, ⟨0, 0⟩⟩
  let first := s.epochs.table.head?.getD ⟨0, 0, 0, 0, .format⟩
  { sizeCode := g.window.code
    generation := generation
    identity := g.identity
    slotCount := g.slotCount
    windowBase := g.window.base
    headSlot := s.journal.head
    headSequence := first.sequence
    headEpoch := first.epoch
    latestBroken := s.epochs.latestBroken
    pendingTarget := s.epochs.pendingTarget }

/-- The copy not written last; A when none was (R76). -/
def Copy.other (c : Option Copy) : Copy :=
  match c with
  | some .a => .b
  | some .b => .a
  | none => .a

/-- A header write begins (R76): the state is copied into the buffer, the generation and the copy are taken. -/
def beginHeader (kind : HeaderKind) (copy : Copy) (generation : Word) (reqs : List HeaderRequest) (s : State) : State :=
  s.setJournal { s.journal with
    header := { s.journal.header with
      generation := generation
      last := some copy
      inFlight := some ⟨copy, generation, (headerOf s generation).encode, 0, reqs, kind⟩ } }

/-- The next requested write: the other copy, the generation plus one (R76). -/
def beginRequested (reqs : List HeaderRequest) (s : State) : State :=
  beginHeader .requested (Copy.other s.journal.header.last) (s.journal.header.generation + 1) reqs s

/-- The waiting requests are dropped from the dirty flag's list (R77, R78). -/
def clearDirty (s : State) : State :=
  s.setJournal { s.journal with header := { s.journal.header with dirty := false, next := [] } }

/-! ## Burst data of the J-port -/

/-- 16 bytes of a buffer: burst n of a record or header copy. -/
def burstOf (bs : List Byte) (n : Nat) : List Byte := field bs (16 * n) 16

end Sys2Proof.Machine
end

