-- ==== Sys2Proof/Machine/Flags.lean ====
section
/-! DEFINITION. Conditions and reports computed from the whole state: the cut conditions (R89), the standing of a slot
(R80), and the data of the long answers (R168, R169, R186, R187). -/

namespace Sys2Proof.Machine

/-- The first cut condition that fails, as its reason; none when all hold (R89). -/
def cutFailure (s : State) : Option Status :=
  if s.epochs.engine ≠ .journaling ∨ s.epochs.startClaimed then some .wrongState
  else if s.epochs.ckptInFlight then some .ckptInFlight
  else if s.maps.find .clean = none then some .sweepBusy
  else if s.free < 1 then some .journalFull
  else if Config.epochCapacity ≤ s.epochs.table.length then some .epochsFull
  else if s.epochs.lastUsed = Config.maxEpoch then some .epochLimit
  else none

/-- The standing of a slot (R80). -/
inductive Standing where
  | inJournal | held | free | noJournal
deriving DecidableEq, Repr

def Standing.code (x : Standing) : Byte :=
  match x with
  | .inJournal => 0x00 | .held => 0x01 | .free => 0x02 | .noJournal => 0x03

/-- Where slot i stands: the held slots end at head, the journal's slots begin there (R67, R80). -/
def standingOf (s : State) (i : Nat) : Standing :=
  match s.journal.geometry with
  | none => .noJournal
  | some g =>
    if ringDist g.slotCount s.journal.head i < s.journal.occupied - s.journal.held then .inJournal
    else if 0 < ringDist g.slotCount i s.journal.head ∧ ringDist g.slotCount i s.journal.head ≤ s.journal.held then
      .held
    else .free

/-- IDENTIFY's 12 bytes (R168, R186). -/
def identifyData : List Byte :=
  be16 Config.vendorCode ++ be16 Config.partCode ++ [Config.revision] ++ beBytes 1 Config.regionCount
    ++ beBytes 1 Config.epochCapacity ++ beBytes 4 Config.maxSlotCount ++ beBytes 1 Config.noticeKinds

/-- A region entry's seven bytes (R186). -/
def Region.bytes (r : Region) : List Byte :=
  [Bool.code r.enabled] ++ be16 r.base ++ be16 r.mask ++ [r.cls.code, r.policy.code]

/-- READ_REGION's 15 bytes (R12, R186). -/
def readRegionData (s : State) (i : Fin 12) : List Byte :=
  beBytes 1 i.val ++ (s.regions.staged[i]).bytes ++ (s.regions.active[i]).bytes

/-- READ_EPOCHS's answer (R86, R186). -/
def readEpochsData (t : List Entry) : List Byte :=
  beBytes 1 t.length ++
    t.flatMap fun e => be32 e.epoch ++ beBytes 3 e.slot ++ beBytes 3 e.undo ++ [e.cause.code]

/-- READ_SLOT's 95 bytes from the 96 read (R80, R187). -/
def readSlotData (s : State) (slot : Nat) (bs : List Byte) : List Byte :=
  let r := Record.decode bs
  beBytes 4 slot ++ [(standingOf s slot).code, (verdict (s.journal.geometry.map (·.identity)) bs).code]
    ++ [r.kind, r.cause] ++ be16 r.check ++ be32 r.identity ++ be32 r.sequence ++ be32 r.epoch
    ++ beBytes 4 r.granule ++ be32 r.reopenedFrom ++ [r.merged] ++ r.old

/-- The transit state's code, IDLE without an access (R26, R187). -/
def transitCode (s : State) : Byte :=
  match s.transit.access with
  | none => 0x00
  | some a => a.stage.code

/-- The marker write's epoch and slot, 0 when none (R187). -/
def markerEpoch (m : MarkerWrite) : Word :=
  match m with
  | .none => 0
  | .inFlight j => j.epoch
  | .failed e _ => e

def markerSlot (m : MarkerWrite) : Nat :=
  match m with
  | .none => 0
  | .inFlight j => j.slot
  | .failed _ i => i

def optCode {α : Type} (f : α → Byte) (x : Option α) : Byte :=
  match x with
  | none => 0x00
  | some a => f a

/-- GET_STATUS, offsets 0 to 35 (R187). -/
def statusEpochs (s : State) : List Byte :=
  [s.epochs.engine.code, Bool.code s.epochs.startClaimed, s.epochs.walker.state.code,
    Bool.code s.epochs.breakRecording, Bool.code s.epochs.ckptInFlight]
    ++ beBytes 1 s.epochs.pendingMark ++ beBytes 1 s.epochs.table.length ++ [s.journal.marker.code]
    ++ be32 s.epochs.pendingTarget ++ be32 s.currentEpoch ++ be32 s.oldestEpoch ++ be32 s.epochs.lastUsed
    ++ be32 s.epochs.latestBroken ++ be32 (markerEpoch s.journal.marker) ++ beBytes 4 (markerSlot s.journal.marker)

/-- GET_STATUS, offsets 36 to 51: the geometry, fields of an absent one 0, and the map states (R170, R187). -/
def statusGeometry (s : State) : List Byte :=
  let g := s.journal.geometry.getD ⟨0, 0, ⟨0, 0⟩⟩
  [Bool.code s.journal.geometry.isSome] ++ beBytes 1 g.window.code ++ [s.maps.m0.state.code, s.maps.m1.state.code]
    ++ be32 g.identity ++ beBytes 4 g.slotCount ++ beBytes 4 g.window.base

/-- GET_STATUS, offsets 52 to 84: ring, sequence counter, header writer, sweeps (R187). -/
def statusJournal (s : State) : List Byte :=
  beBytes 4 s.journal.head ++ beBytes 4 s.journal.tail ++ beBytes 4 s.journal.occupied ++ beBytes 4 s.journal.held
    ++ beBytes 4 s.free ++ be32 s.journal.sequence ++ be32 s.journal.header.generation
    ++ [optCode Copy.code s.journal.header.last, Bool.code s.journal.header.dirty,
      optCode Copy.code (s.journal.header.inFlight.map (·.copy)),
      optCode MapId.code (s.maps.running.map (·.map)), optCode MapId.code s.maps.queued]

/-- GET_STATUS, offsets 85 to 98: transit state, hold timer, policy, notices (R187). -/
def statusPolicy (s : State) : List Byte :=
  [transitCode s] ++ beBytes 2 (s.transit.timer.getD 0) ++ [s.transit.fullMode.code]
    ++ beBytes 1 s.transit.clockRate ++ beBytes 2 s.transit.holdLimit ++ beBytes 4 s.journal.lowWater
    ++ be16 (s.notices.mask.setWidth 16) ++ beBytes 1 s.notices.list.length

/-- GET_STATUS's 99 bytes (R169, R187). -/
def statusData (s : State) : List Byte :=
  statusEpochs s ++ statusGeometry s ++ statusJournal s ++ statusPolicy s

end Sys2Proof.Machine
end

