-- ==== Sys2Proof/Machine/Ports.lean ====
section
/-! DEFINITION. The D-port and J-port arbiters and the bursts on the ports (R43, R61, R62). -/

namespace Sys2Proof.Machine

/-! ## The D-port (R43) -/

/-- The Transit Controller has a D burst to make: a forward, or an old-data read (R24, R33). -/
def transitWaits (s : State) : Bool :=
  match s.transit.access with
  | none => false
  | some a => decide (a.stage = .forward) || decide (a.stage = .readOld)

/-- The walker has a write-back burst to make (R126). -/
def walkerWaits (s : State) : Bool := decide (s.epochs.walker.state = .writeBack)

/-- The walker's next write-back burst: address and bytes (R126). -/
def walkerBurst (w : Walker) : DBurst :=
  let r := Record.decode w.buffer
  .walker (r.granule + 16 * w.bursts) (burstOf r.old w.bursts)

/-- The claimant a free port is granted to: the only one waiting, or the one not granted last (R43). -/
def dPick (s : State) : Option DClient :=
  match transitWaits s, walkerWaits s with
  | false, false => none
  | true, false => some .transit
  | false, true => some .walker
  | true, true =>
    match s.dport.last with
    | .transit => some .walker
    | .walker => some .transit

/-- A free D-port is granted (R43). -/
def grantD (s : State) : State :=
  match s.dport.burst with
  | some _ => s
  | none =>
    match dPick s with
    | none => s
    | some .transit => s.setDport ⟨.transit, some .transit⟩
    | some .walker => s.setDport ⟨.walker, some (walkerBurst s.epochs.walker)⟩

/-- The D burst on the port has ended. -/
def freeD (s : State) : State := s.setDport { s.dport with burst := none }

/-- The Transit Controller's burst is ended early or withdrawn; the record of the last grant is unchanged
(R24, R37, R41, R43). -/
def withdrawD (s : State) : State := if s.dport.burst = some .transit then freeD s else s

/-! ## The J-port (R61, R62) -/

/-- The claimant has a burst to make (R62). -/
def jWaits (s : State) (c : JClient) : Bool :=
  match c with
  | .record =>
    match s.transit.access with
    | none => false
    | some a => decide (a.stage = .writeRecord)
  | .marker =>
    match s.journal.marker with
    | .none => false
    | .inFlight _ => true
    | .failed _ _ => false
  | .header => s.journal.header.inFlight.isSome
  | .walker => decide (s.epochs.walker.state = .read)
  | .recovery =>
    match s.epochs.recovery with
    | .idle => false
    | .copies _ => true
    | .sweep _ => false
    | .scan _ _ _ => true
    | .load _ _ _ _ => true
    | .header _ _ => false
  | .readSlot => s.journal.readSlot.isSome

/-- The J address of the next recovery read: copies A and B follow one another from 0 (R60, R145). -/
def recoveryAddr (r : RecoveryStage) : Nat :=
  match r with
  | .idle => 0
  | .copies buf => buf.length
  | .sweep _ => 0
  | .scan _ sc buf => slotAddr sc.slot + buf.length
  | .load _ _ ld buf => slotAddr ld.slot + buf.length
  | .header _ _ => 0

/-- The burst a claimant makes next: its J address, and the bytes of a write (R73, R74, R76, R80, R123, R145). -/
def jBurst (s : State) (c : JClient) : JBurst :=
  match c with
  | .record =>
    match s.transit.access with
    | none => ⟨.record, 0, some [], false⟩
    | some a =>
      ⟨.record, slotAddr ((a.slot.map (·.slot)).getD 0) + 16 * a.recBursts, some (burstOf a.record a.recBursts), true⟩
  | .marker =>
    match s.journal.marker with
    | .none => ⟨.marker, 0, some [], false⟩
    | .inFlight j => ⟨.marker, slotAddr j.slot + 16 * j.bursts, some (burstOf j.record j.bursts), true⟩
    | .failed _ _ => ⟨.marker, 0, some [], false⟩
  | .header =>
    match s.journal.header.inFlight with
    | none => ⟨.header, 0, some [], false⟩
    | some j => ⟨.header, copyAddr j.copy + 16 * j.bursts, some (burstOf j.buffer j.bursts), true⟩
  | .walker => ⟨.walker, slotAddr s.epochs.walker.cursor + s.epochs.walker.buffer.length, none, true⟩
  | .recovery => ⟨.recovery, recoveryAddr s.epochs.recovery, none, true⟩
  | .readSlot =>
    match s.journal.readSlot with
    | none => ⟨.readSlot, 0, none, false⟩
    | some j => ⟨.readSlot, slotAddr j.slot + j.buffer.length, none, true⟩

/-- The claimants in ring order, beginning after the last granted (R62). -/
def jOrder (last : JClient) : List JClient :=
  match last with
  | .record => [.marker, .header, .walker, .recovery, .readSlot, .record]
  | .marker => [.header, .walker, .recovery, .readSlot, .record, .marker]
  | .header => [.walker, .recovery, .readSlot, .record, .marker, .header]
  | .walker => [.recovery, .readSlot, .record, .marker, .header, .walker]
  | .recovery => [.readSlot, .record, .marker, .header, .walker, .recovery]
  | .readSlot => [.record, .marker, .header, .walker, .recovery, .readSlot]

/-- A free J-port is granted to the first waiting claimant after the last granted one (R62). -/
def grantJ (s : State) : State :=
  match s.journal.jport.burst with
  | some _ => s
  | none =>
    match (jOrder s.journal.jport.last).find? (jWaits s) with
    | none => s
    | some c => s.setJournal { s.journal with jport := ⟨c, some (jBurst s c)⟩ }

/-- Both arbiters grant what can be granted. -/
def arbitrate (s : State) : State := grantJ (grantD s)

/-- The J-port is free. -/
def freeJ (s : State) : State := s.setJournal { s.journal with jport := { s.journal.jport with burst := none } }

/-- The first `n` bytes of a write burst have reached the journal memory (R61). -/
def landJ (b : JBurst) (n : Nat) (s : State) : State :=
  match b.data with
  | none => s
  | some d => s.setJmem (s.jmem.writeBytes b.addr (d.take n))

/-- The claimant's burst on the J-port, if it is the one there. -/
def jOwned (c : JClient) (s : State) : Option JBurst :=
  match s.journal.jport.burst with
  | none => none
  | some b => if b.client = c then some b else none

/-- The burst ends with the JRDY of its fourth beat (R61). -/
def endJ (b : JBurst) (s : State) : State := landJ b 16 (freeJ s)

/-- JERR ends the burst after `beats` acknowledged beats (R61). -/
def failJ (b : JBurst) (beats : Fin 4) (s : State) : State := landJ b (4 * beats.val) (freeJ s)

/-- The 16 bytes a read burst returns (R61). -/
def readJ (b : JBurst) (s : State) : List Byte := s.jmem.readBytes b.addr 16

/-- A burst already granted to a claimant that no longer wants it runs on (R37, R42, R62). -/
def disownJ (c : JClient) (s : State) : State :=
  match s.journal.jport.burst with
  | none => s
  | some b =>
    if b.client = c then
      s.setJournal { s.journal with jport := { s.journal.jport with burst := some { b with live := false } } }
    else s

end Sys2Proof.Machine
end

