-- ==== Sys2Proof/Machine/Engine.lean ====
section
/-! DEFINITION. The operations several commands share: header requests and their failure, MARKER writes, the claims at the
access boundary, the end of an access, the change of engine state, FAULTED, and the ends of FORMAT and RECOVER. -/

namespace Sys2Proof.Machine

/-! ## Small updates -/

def setEngine (e : Engine) (s : State) : State := s.setEpochs { s.epochs with engine := e }

def setAccess (a : Access) (s : State) : State := s.setTransit { s.transit with access := some a }

def setClaims (c : Claims) (s : State) : State := s.setTransit { s.transit with claims := c }

/-- One more beat answered on the U-port (R21, R22). -/
def answerBeat (b : UBeat) (s : State) : State :=
  s.setTransit { s.transit with answers := s.transit.answers ++ [b] }

def setMarker (m : MarkerWrite) (s : State) : State := s.setJournal { s.journal with marker := m }

def setHeader (h : HeaderWriter) (s : State) : State := s.setJournal { s.journal with header := h }

def setWalker (w : Walker) (s : State) : State := s.setEpochs { s.epochs with walker := w }

def setRecovery (r : RecoveryStage) (s : State) : State := s.setEpochs { s.epochs with recovery := r }

/-- One more free value has been used (log 8). -/
def nextFresh (s : State) : State := s.setFresh (s.fresh + 1)

/-- The walker returns to STOPPED; its target keeps the last value set, the rest is discarded (R121, R129). -/
def Walker.stop (w : Walker) : Walker := { Walker.powerOn with target := w.target }

/-! ## The end of RECOVER (R58, R153) -/

/-- MARKERs and records accepted so far; 0 when the scan has not begun (R153). -/
def recoveryCounts (r : RecoveryStage) : Nat × Nat :=
  match r with
  | .idle => (0, 0)
  | .copies _ => (0, 0)
  | .sweep _ => (0, 0)
  | .scan _ sc _ => (sc.entries.length, sc.records)
  | .load _ sc _ _ => (sc.entries.length, sc.records)
  | .header _ sc => (sc.entries.length, sc.records)

/-- The maps after a failed RECOVER: M0 is DIRTY once its load has begun; the window is gone (R48, R58). -/
def recoveryMaps (r : RecoveryStage) (m : CaptureMaps) : CaptureMaps :=
  match r with
  | .idle => { m with window := none }
  | .copies _ => { m with window := none }
  | .sweep _ => { m with window := none }
  | .scan _ _ _ => { m with window := none }
  | .load _ _ _ _ => { m.setState .m0 .dirty with window := none }
  | .header _ _ => { m.setState .m0 .dirty with window := none }

/-- RECOVER ends with a failure outcome (R153). -/
def recoverFail (o : RecoverOutcome) (s : State) : State :=
  let c := recoveryCounts s.epochs.recovery
  let s1 := s.setMaps (recoveryMaps s.epochs.recovery s.maps)
  let s2 := s1.setJournal { s1.journal with
    geometry := none, head := 0, tail := 0, occupied := 0, held := 0, sequence := 0
    header := HeaderWriter.powerOn }
  let s3 := s2.setEpochs { s2.epochs with
    engine := .offline, table := [], lastUsed := 0, latestBroken := 0, breakRecording := false
    pendingTarget := 0, recovery := .idle }
  post (.recoverDone o c.1 c.2) s3

/-- RECOVER ends with RESTORED (JOURNALING) or RESTORED_HELD (HELD) (R153). -/
def recoverEnd (o : RecoverOutcome) (e : Engine) (s : State) : State :=
  let c := recoveryCounts s.epochs.recovery
  post (.recoverDone o c.1 c.2) (s.setEpochs { s.epochs with engine := e, recovery := .idle })

/-! ## Header requests (R77, R78) -/

/-- A request is reported failed to its requester (R78, R102, R107, R122). -/
def failRequest (s : State) (r : HeaderRequest) : State :=
  match r with
  | .checkpoint _ _ _ _ => s
  | .release => if executing 0x0B s then answer .jError [] s else s
  | .brk _ => s
  | .start => if s.epochs.walker.state = .waitStart then setWalker s.epochs.walker.stop s else s
  | .startAborted => s
  | .settle => s
  | .recover => if s.epochs.engine = .recovering then recoverFail .jError s else s

/-- Requests reported failed, in the order in which they were made (log 28). -/
def failRequests (rs : List HeaderRequest) (s : State) : State := rs.foldl failRequest s

/-- A header write is requested: failed at once in FAULTED (R78), begun at once, or attached to the next write through
the dirty flag (R77). -/
def requestHeader (r : HeaderRequest) (s : State) : State :=
  if s.epochs.engine = .faulted then failRequest s r
  else
    match s.journal.header.inFlight with
    | none => beginRequested [r] s
    | some _ => setHeader { s.journal.header with dirty := true, next := s.journal.header.next ++ [r] } s

/-! ## MARKER writes (R74) -/

/-- A MARKER write begins in the slot given (R64, R74). -/
def beginMarker (p : MarkerPurpose) (epoch : Word) (g : SlotGrant) (cause : Cause) (merged : Nat)
    (reopenedFrom : Word) (s : State) : State :=
  let identity := (s.journal.geometry.map (·.identity)).getD 0
  setMarker (.inFlight ⟨epoch, g.slot, p, cause, merged,
    markerRecord identity g.sequence epoch cause merged reopenedFrom, 0⟩) s

/-! ## Taking the claims (R17, R18, R90 to R92, R119) -/

/-- The waiting commit is taken, or refused on the second look at the engine state (R17, R18). -/
def takeCommit (s : State) : State :=
  if s.transit.claims.commit then
    let s1 := setClaims { s.transit.claims with commit := false } s
    match s.epochs.engine with
    | .offline => answer .ok [] (s1.setRegions { s1.regions with active := s1.regions.staged })
    | .journaling => answer .ok [] (s1.setRegions { s1.regions with active := s1.regions.staged })
    | .faulted => answer .ok [] (s1.setRegions { s1.regions with active := s1.regions.staged })
    | .formatting => answer .wrongState [] s1
    | .recovering => answer .wrongState [] s1
    | .rollingBack => answer .wrongState [] s1
    | .settling => answer .wrongState [] s1
    | .held => answer .wrongState [] s1
  else s

/-- The cause of a cut's epoch (R92). -/
def cutCause (by' : CutBy) (pendingMark : Nat) : Cause :=
  match by' with
  | .checkpoint => if pendingMark = 0 then .manual else .manualAndMark
  | .mark => .mark

/-- The cut (R91): number, marker allocation, entry, pending mark cleared, swap, MARKER write. -/
def cut (by' : CutBy) (s : State) : State :=
  let n := s.epochs.lastUsed + 1
  let g := nextGrant s
  let merged := s.epochs.pendingMark
  let cause := cutCause by' merged
  let s1 := allocate s
  let s2 := s1.setEpochs { s1.epochs with
    lastUsed := n
    table := s1.epochs.table ++ [⟨n, g.slot, g.sequence, 0, cause⟩]
    pendingMark := 0 }
  beginMarker .cut n g cause merged 0 (s2.setMaps (swapMaps s2.maps))

/-- The waiting cut is taken in JOURNALING with its checkpoint still in flight (R90, R91). It is dropped in any other
state, and when the engine has entered FAULTED since the claim, which cleared the flag (R82, R87; log 14). -/
def takeCut (s : State) : State :=
  match s.transit.claims.cut with
  | none => s
  | some by' =>
    let s1 := setClaims { s.transit.claims with cut := none } s
    if s.epochs.engine = .journaling ∧ s.epochs.ckptInFlight then cut by' s1
    else s1.setEpochs { s1.epochs with ckptInFlight := false }

/-- The waiting rollback start is taken in JOURNALING or HELD, and dropped in any other state (R119). -/
def takeStart (s : State) : State :=
  match s.transit.claims.start with
  | none => s
  | some k =>
    let s1 := setClaims { s.transit.claims with start := none } s
    let s2 := s1.setEpochs { s1.epochs with startClaimed := false }
    if s.epochs.engine = .journaling ∨ s.epochs.engine = .held then
      requestHeader .start (s2.setEpochs { s2.epochs with
        pendingTarget := k
        engine := .rollingBack
        walker := { s2.epochs.walker with state := .waitStart, target := k } })
    else s2

/-- How many claims wait. -/
def Claims.count (c : Claims) : Nat :=
  (if c.commit then 1 else 0) + (if c.cut.isSome then 1 else 0) + (if c.start.isSome then 1 else 0)

/-- The access boundary (R39): a claim that waits alone is taken. Where two wait their order is open (R40), and the
commands COMMIT_TAKEN, CUT_TAKEN and ROLLBACK_START say it (log 7). -/
def boundary (s : State) : State :=
  if s.transit.claims.count ≤ 1 then takeStart (takeCut (takeCommit s)) else s

/-- A claim has been made: it is taken at once while no access is in progress (R39). -/
def claimed (s : State) : State := if s.transit.access.isNone then boundary s else s

/-- All claims still waiting are taken, a commit beside another claim in either order (R40; the free value of log 8). -/
def takeLeftover (s : State) : State :=
  if s.transit.claims.commit && (s.transit.claims.cut.isSome || s.transit.claims.start.isSome) then
    if Config.commitFirst s.fresh then takeStart (takeCut (takeCommit (nextFresh s)))
    else takeCommit (takeStart (takeCut (nextFresh s)))
  else takeStart (takeCut (takeCommit s))

/-- Claims wait for the upstream access alone (R39, R40): those still waiting with none in progress are taken before any
command but their own comes about. -/
def settle (s : State) : State :=
  if s.transit.access.isNone ∧ s.transit.claims ≠ Claims.none then arbitrate (takeLeftover s) else s

/-! ## The outcome of a command -/

/-- The outcome of a command of a block that PORn does not hold in reset (R46; log 5), after the claims left over. -/
def quiet (s : State) (f : State → State) : Host.Outcome State Fault Refusal :=
  .next (if s.porn then s else f (settle s))

/-- The outcome of a command after which bursts may be granted. -/
def act (s : State) (f : State → State) : Host.Outcome State Fault Refusal :=
  quiet s fun s => arbitrate (f s)

/-- The outcome of a command that takes one of the claims still waiting. -/
def actOnClaims (s : State) (f : State → State) : Host.Outcome State Fault Refusal :=
  .next (if s.porn then s else arbitrate (f s))

/-! ## MARK requests (R89, R96 to R98) -/

/-- A cut is claimed (R87, R90). It takes the place of a claim left from FAULTED, which would be dropped (log 14). -/
def claimCut (by' : CutBy) (s : State) : State :=
  setClaims { s.transit.claims with cut := some by' } (s.setEpochs { s.epochs with ckptInFlight := true })

/-- A MARK request reaches the Epoch Controller (R97). A cut claim that will be dropped does not satisfy it (log 14). -/
def markRequest (s : State) : State :=
  if s.epochs.engine ≠ .journaling ∨ s.epochs.startClaimed then s
  else
    let s1 := s.setEpochs { s.epochs with pendingMark := min 255 (s.epochs.pendingMark + 1) }
    if s.transit.claims.cut.isSome ∧ s.epochs.ckptInFlight then s1
    else
      match cutFailure s1 with
      | none => claimCut .mark s1
      | some reason => post (.markDeferred reason) s1

/-- A pending mark is re-evaluated (R98). -/
def reevaluate (s : State) : State :=
  if s.epochs.engine = .journaling ∧ 0 < s.epochs.pendingMark ∧ cutFailure s = none then
    claimed (claimCut .mark s)
  else s

/-! ## The end of an access (R22, R38, R39) -/

/-- The Transit Controller goes to IDLE: no access, the hold timer stopped, its D burst off the port. -/
def dropAccess (s : State) : State :=
  withdrawD (s.setTransit { s.transit with access := none, timer := none })

/-- The access ends; a MARK request it makes comes before the waiting claims are taken (R38, R39). -/
def endAccess (marks : Bool) (s : State) : State :=
  boundary (if marks then markRequest (dropAccess s) else dropAccess s)

/-- The beat that carries UERR: UD is driven to zero on a read's, and on a write's the part drives no UD (R22, R30). -/
def uerr (write : Bool) : UBeat := .err (if write then none else some 0)

/-- UERR is given on a beat of a write or of a read, and the access ends (R22). -/
def answerErr (write : Bool) (s : State) : State := endAccess false (answerBeat (uerr write) s)

/-- The access is answered with UERR in the name of an engine state, and REFUSED_ACCESS posted (R30, R37, R113). -/
def refuseAccess (a : Access) (e : Engine) (s : State) : State :=
  answerErr a.write (post (.refusedAccess (byteAddr a.ua) a.write e) s)

/-! ## Changes of engine state under an access (R37) -/

/-- The settlement of a capture's slot and record on a change to `e` (R37). -/
def settleCapture (a : Access) (e : Engine) (s : State) : State :=
  if e = .faulted ∧ a.slot.isSome then
    match a.stage with
    | .readOld => returnSlot s
    | .writeRecord => returnSlot s
    | .waitMarker => recordCapture (byteAddr a.ua) s
    | .forward => s
    | .waitSpace => s
    | .waitHeader => s
    | .answer => s
  else s

/-- A capture-governed access in progress is taken out of its path when the engine has entered a state that refuses
it (R37). A forward on the port keeps a beat already presented, a free value (log 8). That the REFUSED_ACCESS of such a
forward is posted at the change, before the UERR that follows the presented beat, is the model's choice (log 31). -/
def cutAccess (e : Engine) (s : State) : State :=
  match s.transit.access with
  | none => s
  | some a =>
    if a.cut = .no ∧ a.result.action.governed ∧ e.refuses then
      match a.stage with
      | .forward =>
        if s.dport.burst = some .transit then
          if Config.beatPresented s.fresh then
            if a.acked + 1 = beatsOf a.burst then setAccess { a with cut := .completes } (nextFresh s)
            else
              setAccess { a with cut := .afterBeat }
                (post (.refusedAccess (byteAddr a.ua) a.write e) (nextFresh s))
          else refuseAccess a e (nextFresh s)
        else refuseAccess a e s
      | .readOld => refuseAccess a e (settleCapture a e s)
      | .writeRecord => refuseAccess a e (settleCapture a e (disownJ .record s))
      | .waitMarker => refuseAccess a e (settleCapture a e s)
      | .waitSpace => refuseAccess a e s
      | .waitHeader => refuseAccess a e s
      | .answer => s
    else s

/-- The engine enters FAULTED (R82): the checkpoint and the pending mark are dropped, the walk stops, the requests
waiting for the next header write fail, and the access in progress is cut. -/
def enterFaulted (s : State) : State :=
  let s1 := s.setEpochs { s.epochs with
    engine := .faulted, ckptInFlight := false, pendingMark := 0, walker := s.epochs.walker.stop }
  cutAccess .faulted (failRequests s.journal.header.next (clearDirty (disownJ .walker s1)))

/-- FORMAT ends with outcome J_ERROR (R142). -/
def formatFail (s : State) : State :=
  post (.formatDone true) (s.setEpochs { s.epochs with engine := .faulted, format := .idle })

/-! ## Breaking an epoch (R105) -/

/-- The current epoch is broken: recorded, a header write requested, EPOCH_BROKEN posted. -/
def breakEpoch (c : BreakCause) (s : State) : State :=
  let e := s.currentEpoch
  post (.epochBroken e c)
    (requestHeader (.brk e) (s.setEpochs { s.epochs with latestBroken := e, breakRecording := true }))

/-! ## SETTLING and the walk (R122, R129, R136) -/

/-- SETTLING ends when its header request has completed and a map is ACTIVE (R136). -/
def finishSettling (s : State) : State :=
  if s.epochs.engine = .settling ∧ s.epochs.settleDone ∧ s.maps.find .active ≠ none then
    post (.rollbackDone s.epochs.walker.target s.currentEpoch) (setEngine .journaling s)
  else s

/-- A halt of the walk (R129); an ABORT held in the slot is answered at it (R130). -/
def halt (c : HaltCause) (slot : Nat) (s : State) : State :=
  let s1 := s.setEpochs { s.epochs with engine := .held, walker := s.epochs.walker.stop }
  let s2 := post (.rollbackHalted c slot) s1
  if executing 0x0D s2 then answer .ok [] s2 else s2

end Sys2Proof.Machine
end

