-- ==== Sys2Proof/Machine/Claim.lean ====
section
/-! DEFINITION. The three claims as commands of their own: which of two waiting claims is taken next (R17, R40, R91, R119;
log 7). -/

namespace Sys2Proof.Machine

/-- The access boundary is open: no access is in progress (R39). -/
def atBoundary (s : State) : Bool := s.transit.access.isNone

/-- COMMIT_TAKEN (R17, R18): the waiting commit is taken, then a claim left alone. -/
def execCommitTaken (s : State) : Host.Outcome State Fault Refusal :=
  actOnClaims s fun s => if atBoundary s && s.transit.claims.commit then boundary (takeCommit s) else s

/-- CUT_TAKEN (R90, R91): the waiting cut is taken, then a claim left alone. -/
def execCutTaken (s : State) : Host.Outcome State Fault Refusal :=
  actOnClaims s fun s => if atBoundary s && s.transit.claims.cut.isSome then boundary (takeCut s) else s

/-- ROLLBACK_START (R119): the waiting rollback start is taken, then a claim left alone. -/
def execRollbackStart (s : State) : Host.Outcome State Fault Refusal :=
  actOnClaims s fun s => if atBoundary s && s.transit.claims.start.isSome then boundary (takeStart s) else s

end Sys2Proof.Machine
end

