-- ==== Sys2Proof/Machine/LinkPort.lean ====
section
/-! DEFINITION. Transactions, the judging of frames, and the delivery of responses (R158 to R167). -/

namespace Sys2Proof.Machine

/-- The response frame of a slot that is READY (R165, R185). -/
def responseFrame (tag : Byte) (st : Status) (data : List Byte) (lost : Bool) : List Byte :=
  let body := [tag, st.code, Bool.code lost] ++ beBytes 1 data.length ++ data
  0x3C :: (body ++ [crc8 body])

/-- What MSO carries in a transaction that begins now: the response if the slot is READY, otherwise FFh (R165). -/
def msoAtStart (slot : Slot) : List Byte :=
  match slot with
  | .empty => []
  | .executing _ _ _ => []
  | .ready tag st data lost => responseFrame tag st data lost

/-- The bit MSO shows to rising edge n of the transaction under way; it is not driven while MSELn is high (R158). That it
is not driven either in what is left of a transaction into which PORn has struck is the model's choice (log 32). -/
def Link.msoBit (l : Link) (n : Nat) : Option Bool := if l.framer = .idle then none else some (outputBit l.mso n)

/-- The bits of one whole transaction join the queue as the commands they come to. The response it delivers is the one the
slot holds when TRANSACTION_START comes about, after the claims left over, with the queue empty now (log 29). -/
def State.withTransaction (s : State) (msi : List Bool) : State :=
  s.setPending (s.pending ++ transactionCommands (msoAtStart (settle s).link.slot).length msi)

/-- TRANSACTION_START: MSELn falls (R159, R165). -/
def execTransactionStart (s : State) : Host.Outcome State Fault Refusal :=
  quiet s fun s =>
    match s.link.framer with
    | .idle => s.setLink ⟨.first, s.link.slot, msoAtStart s.link.slot, 0, false⟩
    | .first => s
    | .code => s
    | .tag => s
    | .length => s
    | .params => s
    | .check => s
    | .discard => s

/-- TRANSACTION_END: MSELn rises (R159, R160). An incomplete frame is discarded and a response not clocked out whole
stays READY (R166). -/
def execTransactionEnd (s : State) : Host.Outcome State Fault Refusal :=
  quiet s fun s => s.setLink ⟨.idle, s.link.slot, [], 0, false⟩

/-- The response's last byte has been clocked out: it is removed, unless a frame was lost in this transaction
(R166). -/
def deliver (l : Link) : Link :=
  if l.mso = [] then l
  else
    { l with
      mso := []
      clocked := max l.clocked l.mso.length
      slot := if l.lostHere then l.slot else .empty }

/-- RESPONSE_DELIVERED (R166). -/
def execResponseDelivered (s : State) : Host.Outcome State Fault Refusal :=
  quiet s fun s => s.setLink (deliver s.link)

/-- A response whose last byte goes out at or before byte c is settled before the frame that ends there
(R158, R167). -/
def deliverBy (c : Nat) (l : Link) : Link := if l.mso.length ≤ c then deliver l else l

/-- A frame is lost: LOST_COMMAND is set in the slot (R164). -/
def loseFrame (l : Link) : Link :=
  { l with
    lostHere := true
    slot := match l.slot with
      | .empty => .empty
      | .executing code tag _ => .executing code tag true
      | .ready tag st data _ => .ready tag st data true }

/-- A frame can end at byte c of the transaction: MSELn is low, no frame has been judged in it, and byte c has not
gone by (R159, R167; log 4). -/
def frameCanEnd (c : Nat) (l : Link) : Bool := decide (l.framer = .first) && decide (l.clocked ≤ c)

/-- The link at the end of a frame of c bytes, before it is judged. -/
def atFrameEnd (c : Nat) (l : Link) : Link := { deliverBy c l with framer := .discard, clocked := c }

/-- A response formed at the judging of a frame (R161). -/
def respond (tag : Byte) (st : Status) (l : Link) : Link := { l with slot := .ready tag st [] false }

/-- The judging of a complete frame (R161): lost, BAD_CHECK, BAD_COMMAND, BAD_LENGTH, or executed by its owner with
the slot EXECUTING (R163). -/
def judgeFrame (code : Byte) (f : Frame) (owner : State → State) (s : State) : State :=
  let c := 5 + f.params.length
  if frameCanEnd c s.link then
    let l := atFrameEnd c s.link
    if l.slot ≠ .empty then s.setLink (loseFrame l)
    else if !frameCheckOk code f then s.setLink (respond f.tag .badCheck l)
    else
      match paramLength code with
      | none => s.setLink (respond f.tag .badCommand l)
      | some n =>
        if f.params.length ≠ n then s.setLink (respond f.tag .badLength l)
        else owner (s.setLink { l with slot := .executing code f.tag false })
  else s

/-- LENGTH_OVERRUN (R160): the frame ends at its length byte, the fourth of the transaction. -/
def execLengthOverrun (_code tag len : Byte) (s : State) : Host.Outcome State Fault Refusal :=
  quiet s fun s =>
    if frameCanEnd 4 s.link && decide (Config.maxParams < len.toNat) then
      let l := atFrameEnd 4 s.link
      if l.slot ≠ .empty then s.setLink (loseFrame l) else s.setLink (respond tag .badLength l)
    else s

/-- UNKNOWN_COMMAND_FRAME (R161): BAD_COMMAND, after the slot and the CRC-8 have been tested. -/
def execUnknownCommandFrame (code : Byte) (f : Frame) (s : State) : Host.Outcome State Fault Refusal :=
  quiet s fun s => judgeFrame code f (fun s => answer .badCommand [] s) s

end Sys2Proof.Machine
end

