-- ==== Sys2Proof/Machine/Transit.lean ====
section
/-! DEFINITION. The upstream access: arrival, dispatch, forward, capture (chapter 2), the full-journal rules of a write
(chapter 6), the tick and the hold timer. -/

namespace Sys2Proof.Machine

/-! ## Dispatch (R23, R27, R29 to R31, R104, R109) -/

/-- The access as sampled at its arrival (R21, R26). -/
def sampleAccess (s : State) (ua : BitVec 24) (write burst priv : Bool) : Access where
  ua := ua
  write := write
  burst := burst
  priv := priv
  result := matchAccess s.regions.active ua write priv
  engineAt := s.epochs.engine
  stage := .forward
  acked := 0
  slot := none
  oldBursts := 0
  recBursts := 0
  record := []
  cut := .no

/-- A capture begins: a slot is allocated and the write enters READ_OLD (R31, R32, R33). -/
def startCapture (a : Access) (s : State) : State :=
  setAccess { a with stage := .readOld, slot := some (nextGrant s), oldBursts := 0 } (allocate s)

/-- The full-journal rules (R104): the epoch is broken, or the write waits for space. -/
def fullJournal (a : Access) (s : State) : State :=
  match s.transit.fullMode with
  | .brk => breakEpoch .fullBreak (setAccess { a with stage := .waitHeader } s)
  | .stall =>
    let s1 := setAccess { a with stage := .waitSpace } s
    post (.captureStall (byteAddr a.ua) s.currentEpoch)
      (s1.setTransit { s1.transit with timer := some s.transit.holdLimit })

/-- The tests of a capture-governed write in JOURNALING, in order (R31). -/
def captureTests (a : Access) (s : State) : State :=
  if currentBroken s then
    setAccess { a with stage := if s.epochs.breakRecording then .waitHeader else .forward } s
  else if bitSet s (byteAddr a.ua) then
    setAccess { a with stage := if markerComplete s s.currentEpoch then .forward else .waitMarker } s
  else if 2 ≤ s.free then startCapture a s
  else fullJournal a s

/-- The path of an access by its action and the engine state (R23, R27). -/
def dispatch (a : Access) (s : State) : State :=
  if malformed a.burst a.ua then answerErr a.write s
  else
    match a.result.action with
    | .guard => answerErr a.write (post (.guardHit (byteAddr a.ua) a.priv (a.result.guardRegion.getD 0)) s)
    | .pass => s
    | .mark => s
    | .capture =>
      if a.engineAt.refuses then refuseAccess a a.engineAt s
      else if a.write ∧ a.engineAt = .journaling then captureTests a s
      else s
    | .captureMark =>
      if a.engineAt.refuses then refuseAccess a a.engineAt s
      else if a.write ∧ a.engineAt = .journaling then captureTests a s
      else s

/-- An arrival: sampled, matched, dispatched (R21, R7). -/
def arrive (ua : BitVec 24) (write burst priv : Bool) (s : State) : State :=
  let a := sampleAccess s ua write burst priv
  dispatch a (s.setTransit { s.transit with access := some a, answers := [] })

/-- ACCESS_ARRIVAL. USTB is not read while an access is in progress or SRSTn is asserted (R21, R41). -/
def execAccessArrival (ua : BitVec 24) (write burst priv : Bool) (s : State) : Host.Outcome State Fault Refusal :=
  act s fun s =>
    if s.srstn ∨ s.transit.access.isSome then s else arrive ua write burst priv s

/-! ## Forward (R24, R25, R37, R38) -/

/-- The access whose forward holds the D-port. -/
def forwarding (s : State) : Option Access :=
  match s.transit.access with
  | none => none
  | some a => if a.stage = .forward ∧ s.dport.burst = some .transit then some a else none

/-- The word address of the next beat. -/
def beatAddr (a : Access) : Nat := byteAddr a.ua + 4 * a.acked

/-- The memory and the U-port take one beat (R24). -/
def carryBeat (a : Access) (ube : BitVec 4) (data : Word) (s : State) : State :=
  if a.write then answerBeat .rdy (s.setDmem (s.dmem.writeLanes (beatAddr a) ube data))
  else answerBeat (.data (s.dmem.readLanes (beatAddr a) ube data)) s

/-- FORWARD_BEAT_ACK (R24): the beat is carried and acknowledged. The last beat ends the access, with the MARK request of
a mark write (R38); an access cut at this beat ends with UERR on the next (R37). -/
def execForwardBeatAck (ube : BitVec 4) (data : Word) (s : State) : Host.Outcome State Fault Refusal :=
  act s fun s =>
    match forwarding s with
    | none => s
    | some a =>
      let s1 := carryBeat a ube data s
      if a.acked + 1 = beatsOf a.burst then endAccess (a.write && a.result.action.marks) s1
      else if a.cut = .afterBeat then answerErr a.write s1
      else setAccess { a with acked := a.acked + 1 } s1

/-- FORWARD_DERR (R25): UERR on the matching beat; no notice, no MARK request. -/
def execForwardDerr (s : State) : Host.Outcome State Fault Refusal :=
  act s fun s =>
    match forwarding s with
    | none => s
    | some a => answerErr a.write s

/-! ## Capture (R33 to R36) -/

/-- The capture whose old-data burst holds the D-port. -/
def readingOld (s : State) : Option Access :=
  match s.transit.access with
  | none => none
  | some a => if a.stage = .readOld ∧ s.dport.burst = some .transit then some a else none

/-- The address of the next old-data burst (R33). -/
def oldAddr (a : Access) : Nat := granuleOf (byteAddr a.ua) + 16 * a.oldBursts

/-- The UNDO record of a capture (R34, R64). -/
def composeUndo (a : Access) (s : State) : List Byte :=
  undoRecord ((s.journal.geometry.map (·.identity)).getD 0) ((a.slot.map (·.sequence)).getD 0) s.currentEpoch
    (granuleOf (byteAddr a.ua)) s.transit.buffer

/-- Sixteen bytes of the granule go into the capture buffer, the first burst into an empty one (R33). -/
def takeOldBurst (a : Access) (s : State) : State :=
  let got := s.dmem.readBytes (oldAddr a) 16
  s.setTransit { s.transit with buffer := (if a.oldBursts = 0 then [] else s.transit.buffer) ++ got }

/-- OLD_DATA_BURST_DONE (R33): after the fourth burst the record is composed and the write enters WRITE_RECORD. -/
def execOldDataBurstDone (s : State) : Host.Outcome State Fault Refusal :=
  act s fun s =>
    match readingOld s with
    | none => s
    | some a =>
      let s1 := freeD (takeOldBurst a s)
      if a.oldBursts + 1 = 4 then
        setAccess { a with oldBursts := 4, stage := .writeRecord, recBursts := 0, record := composeUndo a s1 } s1
      else setAccess { a with oldBursts := a.oldBursts + 1 } s1

/-- A capture ended by an error of the part's own transfers (R36). -/
def failCapture (a : Access) (op : PortOperation) (addr : Nat) (s : State) : State :=
  answerErr a.write (post (.portError op addr) (returnSlot s))

/-- OLD_DATA_DERR (R36). -/
def execOldDataDerr (s : State) : Host.Outcome State Fault Refusal :=
  act s fun s =>
    match readingOld s with
    | none => s
    | some a => failCapture a .oldDataRead (oldAddr a) (freeD s)

/-- The capture whose UNDO record is being written. -/
def writingRecord (s : State) : Option Access :=
  match s.transit.access with
  | none => none
  | some a => if a.stage = .writeRecord then some a else none

/-- The record is complete (R34, R35): the map set and the forward, or the wait for the MARKER. -/
def recordComplete (a : Access) (s : State) : State :=
  if markerComplete s s.currentEpoch then setAccess { a with stage := .forward } (recordCapture (byteAddr a.ua) s)
  else setAccess { a with stage := .waitMarker } s

/-- RECORD_WRITE_DONE (R73): a burst of the record is in the journal memory; at the sixth the record is complete. A burst
of a capture given up has its result disregarded (R42; after a cut of R37, log 26). -/
def execRecordWriteDone (s : State) : Host.Outcome State Fault Refusal :=
  act s fun s =>
    match jOwned .record s with
    | none => s
    | some b =>
      let s1 := endJ b s
      match b.live, writingRecord s1 with
      | true, some a =>
        if a.recBursts + 1 = 6 then recordComplete { a with recBursts := 6 } s1
        else setAccess { a with recBursts := a.recBursts + 1 } s1
      | true, none => s1
      | false, _ => s1

/-- RECORD_WRITE_JERR (R36). On a burst that runs on after its capture was abandoned (R42) the result is disregarded; that
the same holds after a cut of R37, and no PORT_ERROR is posted, is the model's choice (log 26). -/
def execRecordWriteJerr (beats : Fin 4) (s : State) : Host.Outcome State Fault Refusal :=
  act s fun s =>
    match jOwned .record s with
    | none => s
    | some b =>
      let s1 := failJ b beats s
      match b.live, writingRecord s1 with
      | true, some a => failCapture a .recordWrite b.addr s1
      | true, none => s1
      | false, _ => s1

/-! ## Time (R44, R45, R111) -/

/-- TIME_BASE_TICK (R44, R45): a running hold timer falls by one; the next tick has the length set now. -/
def execTimeBaseTick (s : State) : Host.Outcome State Fault Refusal :=
  quiet s fun s =>
    s.setTransit { s.transit with timer := s.transit.timer.map (· - 1), tickLength := s.transit.clockRate }

/-- HOLD_TIMER_EXPIRY (R111): with the timer at zero the epoch is broken with HOLD_EXPIRED and the write enters
WAIT_HEADER. -/
def execHoldTimerExpiry (s : State) : Host.Outcome State Fault Refusal :=
  act s fun s =>
    match s.transit.access with
    | none => s
    | some a =>
      if a.stage = .waitSpace ∧ s.transit.timer = some 0 then
        let s1 := setAccess { a with stage := .waitHeader } s
        breakEpoch .holdExpired (s1.setTransit { s1.transit with timer := none })
      else s

end Sys2Proof.Machine
end

