-- ==== Sys2Proof/Machine/Management.lean ====
section
/-! DEFINITION. The sixteen management commands, each as its owner executes it (R11 to R16, R80, R86, R95, R100, R117, R118,
R130, R139, R140, R144, R168 to R172, R177), and the end of READ_SLOT's reads. -/

namespace Sys2Proof.Machine

/-! ## IDENTIFY, GET_STATUS, SET_POLICY (R168 to R172) -/

/-- IDENTIFY (R168). -/
def execIdentify (f : Frame) (s : State) : Host.Outcome State Fault Refusal :=
  quiet s (judgeFrame 0x01 f fun s => answer .ok identifyData s)

/-- GET_STATUS (R169). -/
def execGetStatus (f : Frame) (s : State) : Host.Outcome State Fault Refusal :=
  quiet s (judgeFrame 0x02 f fun s => answer .ok (statusData s) s)

/-- The five policy values go to their owners as one step (R171). -/
def installPolicy (p : PolicyParams) (s : State) : State :=
  let s1 := s.setTransit { s.transit with
    fullMode := p.fullMode, holdLimit := p.holdLimit, clockRate := p.clockRate }
  let s2 := s1.setJournal { s1.journal with lowWater := p.lowWater }
  s2.setNotices { s2.notices with mask := p.mask }

/-- SET_POLICY (R171). -/
def execSetPolicy (f : Frame) (s : State) : Host.Outcome State Fault Refusal :=
  quiet s (judgeFrame 0x07 f fun s =>
    match setPolicyParams f.params with
    | none => answer .badParam [] s
    | some p => answer .ok [] (installPolicy p s))

/-! ## The region table (R11 to R17) -/

/-- WRITE_REGION (R11). -/
def execWriteRegion (f : Frame) (s : State) : Host.Outcome State Fault Refusal :=
  quiet s (judgeFrame 0x03 f fun s =>
    match writeRegionParams f.params with
    | none => answer .badParam [] s
    | some (i, r) => answer .ok [] (s.setRegions { s.regions with staged := s.regions.staged.set i r }))

/-- READ_REGION (R12). -/
def execReadRegion (f : Frame) (s : State) : Host.Outcome State Fault Refusal :=
  quiet s (judgeFrame 0x04 f fun s =>
    match regionIndex (byteAt f.params 0) with
    | none => answer .badParam [] s
    | some i => answer .ok (readRegionData s i) s)

/-- REVERT_STAGED (R13). -/
def execRevertStaged (f : Frame) (s : State) : Host.Outcome State Fault Refusal :=
  quiet s (judgeFrame 0x06 f fun s => answer .ok [] (s.setRegions { s.regions with staged := s.regions.active }))

/-- The data of a BAD_REGION refusal: the index and the reason OUTSIDE_WINDOW (R186). -/
def badRegionData (i : Nat) : List Byte := beBytes 1 i ++ [0x01]

/-- The commit is claimed (R17). -/
def claimCommit (s : State) : State := claimed (setClaims { s.transit.claims with commit := true } s)

/-- The commit after the state check: validated against the window of the journal, if there is one (R16). -/
def validateCommit (s : State) : State :=
  match s.journal.geometry with
  | none => claimCommit s
  | some g =>
    match firstOutside s.regions.staged g.window with
    | some i => answer .badRegion (badRegionData i) s
    | none => claimCommit s

/-- COMMIT_REGIONS (R14, R16, R17). -/
def execCommitRegions (f : Frame) (s : State) : Host.Outcome State Fault Refusal :=
  act s (judgeFrame 0x05 f fun s =>
    match s.epochs.engine with
    | .offline => claimCommit s
    | .journaling => validateCommit s
    | .faulted => validateCommit s
    | .formatting => answer .wrongState [] s
    | .recovering => answer .wrongState [] s
    | .rollingBack => answer .wrongState [] s
    | .settling => answer .wrongState [] s
    | .held => answer .wrongState [] s)

/-! ## FORMAT and RECOVER (R139, R140, R144) -/

/-- The engine states that refuse FORMAT and RECOVER with BUSY (R139, R144). -/
def Engine.longOperation (e : Engine) : Bool :=
  match e with
  | .formatting => true
  | .recovering => true
  | .rollingBack => true
  | .settling => true
  | .offline => false
  | .journaling => false
  | .held => false
  | .faulted => false

/-- The refusal of a FORMAT, with its data; none when every check passes (R139). -/
def formatRefusal (g : Geometry) (s : State) : Option (Status × List Byte) :=
  if s.epochs.engine.longOperation ∨ s.epochs.startClaimed then some (.busy, [])
  else if s.epochs.ckptInFlight then some (.ckptInFlight, [])
  else if !g.legal then some (.badParam, [])
  else
    match firstOutside s.regions.active g.window with
    | some i => some (.badRegion, badRegionData i)
    | none => none

/-- The header write in flight, if any, belongs to a journal now abandoned: it runs to its end and reports to nobody
(R77, R140). -/
def abandonHeader (s : State) : State :=
  match s.journal.header.inFlight with
  | none => s
  | some j => setHeader { s.journal.header with inFlight := some { j with requests := [], kind := .abandoned } } s

/-- The acceptance of FORMAT (R140). -/
def acceptFormat (g : Geometry) (s : State) : State :=
  let s1 := answer .accepted [] s
  let s2 := s1.setEpochs { s1.epochs with
    engine := .formatting, table := [], lastUsed := 0, latestBroken := 0, pendingTarget := 0
    breakRecording := false, pendingMark := 0, ckptInFlight := false, startClaimed := false, format := .sweep }
  let s3 := disownJ .marker s2
  let s4 := s3.setJournal { s3.journal with
    geometry := some g, head := 0, tail := 0, occupied := 0, held := 0, sequence := 1, marker := .none }
  let s5 := abandonHeader (clearDirty s4)
  cutAccess .formatting (s5.setMaps (installWindow g.window s5.maps))

/-- FORMAT (R139, R140). -/
def execFormat (f : Frame) (s : State) : Host.Outcome State Fault Refusal :=
  act s (judgeFrame 0x08 f fun s =>
    match formatRefusal (formatParams f.params) s with
    | some (st, data) => answer st data s
    | none => acceptFormat (formatParams f.params) s)

/-- The acceptance of RECOVER (R144, R145). -/
def acceptRecover (s : State) : State :=
  let s1 := answer .accepted [] s
  cutAccess .recovering (s1.setEpochs { s1.epochs with engine := .recovering, recovery := .copies [] })

/-- RECOVER (R144). -/
def execRecover (f : Frame) (s : State) : Host.Outcome State Fault Refusal :=
  act s (judgeFrame 0x09 f fun s =>
    match s.epochs.engine with
    | .offline => acceptRecover s
    | .formatting => answer .busy [] s
    | .recovering => answer .busy [] s
    | .rollingBack => answer .busy [] s
    | .settling => answer .busy [] s
    | .journaling => answer .wrongState [] s
    | .held => answer .wrongState [] s
    | .faulted => answer .wrongState [] s)

/-! ## CHECKPOINT and RELEASE (R95, R100, R101) -/

/-- CHECKPOINT (R95). -/
def execCheckpoint (f : Frame) (s : State) : Host.Outcome State Fault Refusal :=
  act s (judgeFrame 0x0A f fun s =>
    match cutFailure s with
    | some reason => answer reason [] s
    | none => claimed (claimCut .checkpoint (answer .accepted (be32 (s.epochs.lastUsed + 1)) s)))

/-- The refusal of a RELEASE of e; none when every check passes (R100). -/
def releaseRefusal (e : Word) (s : State) : Option Status :=
  if (s.epochs.engine ≠ .journaling ∧ s.epochs.engine ≠ .held) ∨ s.epochs.startClaimed then some .wrongState
  else if s.epochs.ckptInFlight then some .ckptInFlight
  else if e = 0 then some .badParam
  else if (entryOf s.epochs.table e).isNone then some .notRetained
  else if ¬ e < s.currentEpoch then some .badParam
  else if s.epochs.engine = .held ∧ ¬ e < s.epochs.pendingTarget then some .badParam
  else none

/-- The entries a RELEASE of e leaves (R84, R101). -/
def keptEntries (t : List Entry) (e : Word) : List Entry := t.filter fun x => decide (e < x.epoch)

/-- The taking of a RELEASE (R70, R101). -/
def takeRelease (e : Word) (s : State) : State :=
  let kept := keptEntries s.epochs.table e
  let newHead := (kept.head?.map (·.slot)).getD s.journal.head
  let s1 := s.setEpochs { s.epochs with table := kept }
  requestHeader .release (s1.setJournal { s1.journal with
    head := newHead
    held := s1.journal.held + ringDist s.slotCount s.journal.head newHead })

/-- RELEASE (R100, R101). -/
def execRelease (f : Frame) (s : State) : Host.Outcome State Fault Refusal :=
  act s (judgeFrame 0x0B f fun s =>
    match releaseRefusal (wordBe f.params 0) s with
    | some st => answer st [] s
    | none => takeRelease (wordBe f.params 0) s)

/-! ## ROLLBACK and ABORT (R117, R118, R130) -/

/-- The refusal of a ROLLBACK to k; none when every check passes (R117). -/
def rollbackRefusal (k : Word) (s : State) : Option Status :=
  if s.epochs.engine = .offline ∨ s.epochs.engine = .faulted then some .wrongState
  else if s.epochs.engine.longOperation ∨ s.epochs.startClaimed then some .busy
  else if s.epochs.ckptInFlight then some .ckptInFlight
  else if k = 0 then some .badParam
  else if (entryOf s.epochs.table k).isNone then some .notRetained
  else if ¬ s.epochs.latestBroken < k then some .unrestorable
  else if s.epochs.engine = .held ∧ s.epochs.pendingTarget < k then some .badParam
  else if s.epochs.lastUsed = Config.maxEpoch then some .epochLimit
  else none

/-- A write stalled in WAIT_SPACE is refused in the name of ROLLING_BACK (R113). -/
def endStall (s : State) : State :=
  match s.transit.access with
  | none => s
  | some a => if a.stage = .waitSpace then refuseAccess a .rollingBack s else s

/-- The acceptance of a ROLLBACK (R118). -/
def acceptRollback (k : Word) (s : State) : State :=
  let s1 := answer .accepted (be32 k ++ be32 (s.epochs.lastUsed + 1)) s
  let s2 := s1.setEpochs { s1.epochs with pendingMark := 0, startClaimed := true }
  let s3 := setClaims { s2.transit.claims with start := some k } s2
  if s3.transit.access.isNone then boundary s3 else endStall s3

/-- ROLLBACK (R117, R118). -/
def execRollback (f : Frame) (s : State) : Host.Outcome State Fault Refusal :=
  act s (judgeFrame 0x0C f fun s =>
    match rollbackRefusal (wordBe f.params 0) s with
    | some st => answer st [] s
    | none => acceptRollback (wordBe f.params 0) s)

/-- The start's request after an ABORT in WAIT_START: when it completes nothing further happens (R130). -/
def HeaderRequest.forgetStart (r : HeaderRequest) : HeaderRequest :=
  match r with
  | .start => .startAborted
  | .startAborted => .startAborted
  | .checkpoint e c i m => .checkpoint e c i m
  | .release => .release
  | .brk e => .brk e
  | .settle => .settle
  | .recover => .recover

def forgetStarts (h : HeaderWriter) : HeaderWriter :=
  { h with
    next := h.next.map HeaderRequest.forgetStart
    inFlight := h.inFlight.map fun j => { j with requests := j.requests.map HeaderRequest.forgetStart } }

/-- ABORT (R130): the walk halts at once in WAIT_START, and at the end of the step in READ and WRITE_BACK. -/
def execAbort (f : Frame) (s : State) : Host.Outcome State Fault Refusal :=
  act s (judgeFrame 0x0D f fun s =>
    if s.epochs.engine = .rollingBack then
      match s.epochs.walker.state with
      | .waitStart =>
        halt .aborted (ringPrev s.slotCount s.journal.tail) (setHeader (forgetStarts s.journal.header) s)
      | .read => setWalker { s.epochs.walker with abort := true } s
      | .writeBack => setWalker { s.epochs.walker with abort := true } s
      | .reopen => answer .wrongState [] s
      | .stopped => answer .wrongState [] s
    else answer .wrongState [] s)

/-! ## READ_EPOCHS, READ_NOTICE, READ_SLOT (R80, R86, R177) -/

/-- READ_EPOCHS (R86). -/
def execReadEpochs (f : Frame) (s : State) : Host.Outcome State Fault Refusal :=
  quiet s (judgeFrame 0x0E f fun s =>
    if s.epochs.engine = .formatting ∨ s.epochs.engine = .recovering then answer .busy [] s
    else answer .ok (readEpochsData s.epochs.table) s)

/-- READ_NOTICE (R177). -/
def execReadNotice (f : Frame) (s : State) : Host.Outcome State Fault Refusal :=
  quiet s (judgeFrame 0x0F f fun s =>
    match s.notices.list with
    | [] => answer .empty [] s
    | e :: t => answer .ok e.bytes (s.setNotices { s.notices with list := t }))

/-- Slots READ_SLOT may name: below the slot count, or below the largest one without a geometry (R80). -/
def slotLimit (s : State) : Nat :=
  match s.journal.geometry with
  | none => Config.maxSlotCount
  | some g => g.slotCount

/-- READ_SLOT (R80). -/
def execReadSlot (f : Frame) (s : State) : Host.Outcome State Fault Refusal :=
  act s (judgeFrame 0x10 f fun s =>
    if s.epochs.engine = .formatting ∨ s.epochs.engine = .recovering then answer .busy [] s
    else if fieldBe f.params 0 4 < slotLimit s then
      s.setJournal { s.journal with readSlot := some ⟨fieldBe f.params 0 4, []⟩ }
    else answer .badParam [] s)

/-- The READ_SLOT under way has ended. -/
def endReadSlot (s : State) : State := s.setJournal { s.journal with readSlot := none }

/-- READ_SLOT_DONE (R80): a burst is read; at the sixth the command is answered. -/
def execReadSlotDone (s : State) : Host.Outcome State Fault Refusal :=
  act s fun s =>
    match jOwned .readSlot s, s.journal.readSlot with
    | some b, some j =>
      let bs := j.buffer ++ readJ b s
      let s1 := endJ b s
      if bs.length < 96 then s1.setJournal { s1.journal with readSlot := some { j with buffer := bs } }
      else answer .ok (readSlotData s1 j.slot bs) (endReadSlot s1)
    | _, _ => s

/-- READ_SLOT_JERR (R80). -/
def execReadSlotJerr (s : State) : Host.Outcome State Fault Refusal :=
  act s fun s =>
    match jOwned .readSlot s with
    | none => s
    | some _ => answer .jError [] (endReadSlot (freeJ s))

end Sys2Proof.Machine
end

