-- ==== Sys2Proof/Machine/Recovery.lean ====
section
/-! DEFINITION. RECOVER's reads: the header copies, the scan, the rebuild, the map load and the settlement of the pending
target (R57, R145 to R153, R184). -/

namespace Sys2Proof.Machine

/-! ## The header copies (R145 to R147, R184) -/

def Header.window (h : Header) : Window := ⟨h.windowBase, h.sizeCode⟩

/-- The header field test of R184. -/
def Header.legal (h : Header) : Bool :=
  decide (Config.minSlotCount ≤ h.slotCount) && decide (h.slotCount ≤ Config.maxSlotCount) && h.window.aligned
    && decide (h.headSlot < h.slotCount)

/-- Two copies of one journal (R146). -/
def Header.sameJournal (x y : Header) : Bool :=
  x.identity == y.identity && decide (x.slotCount = y.slotCount) && decide (x.window = y.window)

/-- The copy chosen of the two read, none when neither is valid (R145, R146). -/
def chooseCopy (bufA bufB : List Byte) : Option (Copy × Header) :=
  let a := Header.decode bufA
  let b := Header.decode bufB
  match headerValid bufA, headerValid bufB with
  | false, false => none
  | true, false => some (.a, a)
  | false, true => some (.b, b)
  | true, true =>
    if a.sameJournal b ∧ b.generation = a.generation + 1 then some (.b, b) else some (.a, a)

/-- Both copies are read (R145, R146, R147, R184). -/
def copiesRead (bs : List Byte) (s : State) : State :=
  match chooseCopy (bs.take 128) (bs.drop 128) with
  | none => recoverFail .noJournal s
  | some (c, h) =>
    let s1 := setHeader { s.journal.header with generation := h.generation, last := some c } s
    if !h.legal then recoverFail .badJournal s1
    else if (firstOutside s.regions.active h.window).isSome then recoverFail .windowConflict s1
    else
      let s2 := s1.setJournal { s1.journal with geometry := some ⟨h.identity, h.slotCount, h.window⟩ }
      setRecovery (.sweep h) (s2.setMaps (installWindow h.window s2.maps))

/-- HEADER_COPIES_READ (R145): a burst of copy A or then of copy B; the sixteenth ends the reads. -/
def execHeaderCopiesRead (s : State) : Host.Outcome State Fault Refusal :=
  act s fun s =>
    match jOwned .recovery s, s.epochs.recovery with
    | some b, .copies buf =>
      let bs := buf ++ readJ b s
      if bs.length < 256 then setRecovery (.copies bs) (endJ b s) else copiesRead bs (endJ b s)
    | _, _ => s

/-! ## The settlement (R152) -/

/-- The pending target is settled (R152). -/
def settleTarget (h : Header) (sc : Scan) (s : State) : State :=
  let s1 := setRecovery (.header h sc) s
  if h.pendingTarget = 0 then recoverEnd .restored .journaling s1
  else if sc.reopened then
    requestHeader .recover (s1.setEpochs { s1.epochs with pendingTarget := 0 })
  else recoverEnd .restoredHeld .held (s1.setEpochs { s1.epochs with pendingTarget := h.pendingTarget })

/-! ## The scan (R148 to R151) -/

/-- The distance from one sequence number to another, modulo 2^32 (R66). -/
def seqAhead (x y : Word) : Nat := (y - x).toNat

/-- The first record is accepted (R149). -/
def headAccepted (identity : Word) (h : Header) (bs : List Byte) : Bool :=
  let r := Record.decode bs
  let p := h.pendingTarget
  let d := seqAhead h.headSequence r.sequence
  decide (verdict (some identity) bs = .valid) && decide (r.kind = kindMarker) &&
    ((r.epoch == h.headEpoch && r.sequence == h.headSequence) ||
      (p != 0 && p == h.headEpoch && decide (Cause.ofCode r.cause = some .reopen) && r.reopenedFrom == p
        && decide (p < r.epoch) && decide (1 ≤ d) && decide (d ≤ 2147483647)))

/-- A record after the first is accepted (R148). -/
def nextAccepted (identity : Word) (w : Window) (sc : Scan) (bs : List Byte) : Bool :=
  let r := Record.decode bs
  let d := seqAhead sc.sequence r.sequence
  decide (verdict (some identity) bs = .valid) &&
    (if r.kind = kindUndo then
      decide (d = 1) && r.epoch == sc.epoch && w.contains r.granule
    else
      decide (sc.epoch < r.epoch) &&
        match Cause.ofCode r.cause with
        | some .manual => decide (d = 1)
        | some .mark => decide (d = 1)
        | some .manualAndMark => decide (d = 1)
        | some .reopen =>
          decide (2 ≤ d) && decide (d ≤ 2147483647) && decide (sc.epoch < r.reopenedFrom)
            && decide (r.reopenedFrom < r.epoch)
        | some .format => false
        | none => false)

/-- The scan's values after a record is accepted (R148, R152). -/
def acceptRecord (n : Nat) (p : Word) (sc : Scan) (bs : List Byte) : Scan :=
  let r := Record.decode bs
  let marker := decide (r.kind = kindMarker)
  let cause := (Cause.ofCode r.cause).getD .format
  { entries := if marker then sc.entries ++ [⟨r.epoch, sc.slot, r.sequence, 0, cause⟩] else raiseLast sc.entries
    records := sc.records + 1
    slot := ringNext n sc.slot
    epoch := r.epoch
    sequence := r.sequence
    reopened := sc.reopened ||
      (marker && decide (cause = .reopen) && p != 0 && r.reopenedFrom == p) }

/-- The higher of two epoch numbers. -/
def epochMax (x y : Word) : Word := if x < y then y else x

/-- The scan is complete: the part's state is rebuilt, M0 goes to ACTIVE, and its load begins (R57, R151). -/
def rebuild (h : Header) (sc : Scan) (s : State) : State :=
  let s1 := s.setJournal { s.journal with
    head := h.headSlot, tail := sc.slot, occupied := sc.records, held := 0
    sequence := sc.sequence + 1, marker := .none }
  let s2 := s1.setEpochs { s1.epochs with
    table := sc.entries
    lastUsed := epochMax ((sc.entries.getLast?.map (·.epoch)).getD 0) h.latestBroken
    latestBroken := h.latestBroken
    breakRecording := false, ckptInFlight := false, pendingMark := 0 }
  let s3 := s2.setMaps (s2.maps.setState .m0 .active)
  let last := sc.entries.getLast?.getD ⟨0, 0, 0, 0, .format⟩
  if last.undo = 0 then settleTarget h sc s3
  else setRecovery (.load h sc ⟨ringNext s.slotCount last.slot, last.undo, last.sequence + 1⟩ []) s3

/-- A slot has been read (R148 to R150). -/
def scanSlot (h : Header) (sc : Scan) (bs : List Byte) (s : State) : State :=
  let ok := if sc.records = 0 then headAccepted h.identity h bs else nextAccepted h.identity h.window sc bs
  if ok then
    let sc1 := acceptRecord h.slotCount h.pendingTarget sc bs
    let s1 := setRecovery (.scan h sc1 []) s
    if Config.epochCapacity < sc1.entries.length then recoverFail .badJournal s1
    else if sc1.records = h.slotCount then rebuild h sc1 s1
    else s1
  else if sc.records = 0 then recoverFail .badJournal s
  else rebuild h sc s

/-- SCAN_SLOT_READ (R148): a burst of the slot is read; at the sixth the record is accepted or the scan stops. -/
def execScanSlotRead (s : State) : Host.Outcome State Fault Refusal :=
  act s fun s =>
    match jOwned .recovery s, s.epochs.recovery with
    | some b, .scan h sc buf =>
      let bs := buf ++ readJ b s
      if bs.length < 96 then setRecovery (.scan h sc bs) (endJ b s) else scanSlot h sc bs (endJ b s)
    | _, _ => s

/-! ## The map load (R57) -/

/-- A record read again passes: check code, identity and form, its sequence number, and for an UNDO record its place
in the window (R57; log 17). -/
def reloadAccepted (identity : Word) (w : Window) (sequence : Word) (bs : List Byte) : Bool :=
  let r := Record.decode bs
  decide (verdict (some identity) bs = .valid) && r.sequence == sequence
    && (decide (r.kind ≠ kindUndo) || w.contains r.granule)

/-- A slot of the last epoch has been read again (R57). -/
def loadSlot (h : Header) (sc : Scan) (ld : MapLoad) (bs : List Byte) (s : State) : State :=
  if reloadAccepted h.identity h.window ld.sequence bs then
    let r := Record.decode bs
    let s1 := if r.kind = kindUndo then s.setMaps (setBit s.maps r.granule) else s
    if ld.left ≤ 1 then settleTarget h sc s1
    else setRecovery (.load h sc ⟨ringNext h.slotCount ld.slot, ld.left - 1, ld.sequence + 1⟩ []) s1
  else recoverFail .badJournal s

/-- MAP_LOAD_READ (R57): a burst of the slot is read; at the sixth the record is checked and its bit set. -/
def execMapLoadRead (s : State) : Host.Outcome State Fault Refusal :=
  act s fun s =>
    match jOwned .recovery s, s.epochs.recovery with
    | some b, .load h sc ld buf =>
      let bs := buf ++ readJ b s
      if bs.length < 96 then setRecovery (.load h sc ld bs) (endJ b s) else loadSlot h sc ld bs (endJ b s)
    | _, _ => s

/-- RECOVERY_READ_JERR (R145, R150, R57): RECOVER ends with J_ERROR. -/
def execRecoveryReadJerr (s : State) : Host.Outcome State Fault Refusal :=
  act s fun s =>
    match jOwned .recovery s with
    | none => s
    | some _ => if s.epochs.engine = .recovering then recoverFail .jError (freeJ s) else freeJ s

end Sys2Proof.Machine
end

