-- ==== Sys2Proof/Machine/Reset.lean ====
section
/-! DEFINITION. PORn and SRSTn (R2, R41, R42, R46, R59, R61, R138, R162). -/

namespace Sys2Proof.Machine

/-- What a power-on reset leaves of the journal memory: the beats already acknowledged of a write burst stay (R61). -/
def resetJmem (jBeats : Fin 4) (s : State) : Memory :=
  match s.journal.jport.burst with
  | none => s.jmem
  | some b =>
    match b.data with
    | none => s.jmem
    | some d => s.jmem.writeBytes b.addr (d.take (4 * jBeats.val))

/-- What a power-on reset leaves of the protected memory: a write-back's acknowledged beats stay (R126, R138). -/
def resetDmem (dBeats : Fin 4) (s : State) : Memory :=
  match s.dport.burst with
  | none => s.dmem
  | some .transit => s.dmem
  | some (.walker addr d) => s.dmem.writeBytes addr (d.take (4 * dBeats.val))

/-- Every block takes its power-on values; the two memories are not touched, and the map bits are not cleared
(R46, R59). -/
def powerOn (jBeats dBeats : Fin 4) (s : State) : State :=
  { State.reset with
    porn := true
    srstn := s.srstn
    maps := { CaptureMaps.powerOn with m0 := ⟨.dirty, s.maps.m0.bits⟩, m1 := ⟨.dirty, s.maps.m1.bits⟩ }
    dmem := resetDmem dBeats s
    jmem := resetJmem jBeats s
    fresh := s.fresh
    pending := s.pending }

/-- POWER_ON_RESET (R46). -/
def execPowerOnReset (jBeats dBeats : Fin 4) (s : State) : Host.Outcome State Fault Refusal :=
  .next (powerOn jBeats dBeats s)

/-- PORN_DEASSERTED (R46). -/
def execPornDeasserted (s : State) : Host.Outcome State Fault Refusal := .next (s.setPorn false)

/-- The slot, bit and record of an abandoned access, by its transit state (R42). -/
def settleAbandoned (a : Access) (s : State) : State :=
  match a.stage with
  | .forward => s
  | .readOld => if a.slot.isSome then returnSlot s else s
  | .writeRecord => if a.slot.isSome then returnSlot (disownJ .record s) else disownJ .record s
  | .waitMarker => if a.slot.isSome then recordCapture (byteAddr a.ua) s else s
  | .waitSpace => s
  | .waitHeader => s
  | .answer => s

/-- The access in progress is abandoned and the waiting claims are taken (R41, R42). -/
def abandon (s : State) : State :=
  match s.transit.access with
  | none => s
  | some a => boundary (dropAccess (settleAbandoned a s))

/-- SYSTEM_RESET (R41). While PORn holds the part in reset only the line's level changes (log 5). -/
def execSystemReset (s : State) : Host.Outcome State Fault Refusal :=
  .next (if s.porn then s.setSrstn true else arbitrate (abandon (s.setSrstn true)))

/-- SRSTN_DEASSERTED (R41). -/
def execSrstnDeasserted (s : State) : Host.Outcome State Fault Refusal := .next (s.setSrstn false)

end Sys2Proof.Machine
end

