-- ==== Sys2Proof/Machine/Walk.lean ====
section
/-! DEFINITION. The rollback walker: the walk, its steps, its halts and the arrival at the target (R121 to R134). -/

namespace Sys2Proof.Machine

/-- The walk begins when the start's header request has completed (R122). -/
def walkBegin (s : State) : State :=
  setWalker { s.epochs.walker with
    state := .read
    cursor := ringPrev s.slotCount s.journal.tail
    sequence := s.journal.sequence - 1
    expected := s.epochs.table.length - 1
    buffer := []
    bursts := 0
    abort := false } s

/-- The tests of R124 on the 96 bytes read, the expected entry given. -/
def walkVerified (s : State) (e : Entry) (bs : List Byte) : Bool :=
  let r := Record.decode bs
  let w := s.epochs.walker
  match s.journal.geometry with
  | none => false
  | some g =>
    decide (verdict (some g.identity) bs = .valid) && r.sequence == w.sequence
      && decide (r.kind = if w.cursor = e.slot then kindMarker else kindUndo)
      && r.epoch == e.epoch
      && (decide (r.kind ≠ kindUndo) || g.window.contains r.granule)

/-- A step of the walk has ended: the next slot is read, or an ABORT taken during the step halts the walk at the slot
that would be read next (R126, R127, R130). -/
def endStep (w : Walker) (s : State) : State :=
  if w.abort then halt .aborted w.cursor s
  else setWalker { w with state := .read, buffer := [], bursts := 0 } s

/-- The arrival at the target (R71, R134): the table and the ring are trimmed at the MARKER of k, the REOPEN slot is
allocated, the reopened epoch joins the table, and its MARKER write begins. -/
def arriveTarget (e : Entry) (s : State) : State :=
  let k := s.epochs.walker.target
  let s1 := s.setJournal { s.journal with
    tail := e.slot
    occupied := ringDist s.slotCount s.journal.head e.slot }
  let g := nextGrant s1
  let n := s.epochs.lastUsed + 1
  let s2 := allocate s1
  let s3 := s2.setEpochs { s2.epochs with
    lastUsed := n
    table := (s2.epochs.table.filter fun x => decide (x.epoch < k)) ++ [⟨n, g.slot, g.sequence, 0, .reopen⟩]
    walker := { s2.epochs.walker with state := .reopen } }
  beginMarker .reopen n g .reopen 0 k s3

/-- A verified MARKER (R125, R127): of an epoch above k it is skipped, of k the target is reached. -/
def walkMarker (e : Entry) (s : State) : State :=
  let w := s.epochs.walker
  if e.epoch = w.target then
    if w.abort then halt .aborted e.slot s else arriveTarget e s
  else
    match s.epochs.table[w.expected - 1]? with
    | none => halt .badRecord w.cursor s
    | some p =>
      endStep { w with
        cursor := ringPrev s.slotCount w.cursor
        sequence := p.sequence + BitVec.ofNat 32 p.undo
        expected := w.expected - 1 } s

/-- The sixth burst of a slot is read (R124). -/
def walkSlot (bs : List Byte) (s : State) : State :=
  let w := s.epochs.walker
  match s.epochs.table[w.expected]? with
  | none => halt .badRecord w.cursor s
  | some e =>
    if walkVerified s e bs then
      if w.cursor = e.slot then walkMarker e s
      else setWalker { w with state := .writeBack, buffer := bs, bursts := 0 } s
    else halt .badRecord w.cursor s

/-- WALKER_SLOT_READ (R123, R124): a burst of the slot is read; at the sixth the record is judged. -/
def execWalkerSlotRead (s : State) : Host.Outcome State Fault Refusal :=
  act s fun s =>
    match jOwned .walker s with
    | none => s
    | some b =>
      let s1 := endJ b s
      if b.live ∧ s.epochs.walker.state = .read then
        let bs := s.epochs.walker.buffer ++ readJ b s
        if bs.length < 96 then setWalker { s1.epochs.walker with buffer := bs } s1 else walkSlot bs s1
      else s1

/-- WALKER_READ_JERR (R123). -/
def execWalkerReadJerr (s : State) : Host.Outcome State Fault Refusal :=
  act s fun s =>
    match jOwned .walker s with
    | none => s
    | some b =>
      if b.live ∧ s.epochs.walker.state = .read then halt .jError s.epochs.walker.cursor (freeJ s) else freeJ s

/-- The write-back burst on the D-port. -/
def writeBackBurst (s : State) : Option (Nat × List Byte) :=
  match s.dport.burst with
  | none => none
  | some .transit => none
  | some (.walker addr d) => some (addr, d)

/-- WRITE_BACK_DONE (R126): a burst of old data is in the protected memory; the fourth ends the step. -/
def execWriteBackDone (s : State) : Host.Outcome State Fault Refusal :=
  act s fun s =>
    match writeBackBurst s with
    | none => s
    | some (addr, d) =>
      let s1 := freeD (s.setDmem (s.dmem.writeBytes addr d))
      let w := s.epochs.walker
      if w.state = .writeBack then
        if w.bursts + 1 = 4 then
          endStep { w with cursor := ringPrev s.slotCount w.cursor, sequence := w.sequence - 1 } s1
        else setWalker { w with bursts := w.bursts + 1 } s1
      else s1

/-- WRITE_BACK_DERR (R126): the beats acknowledged stay, and the walk halts. -/
def execWriteBackDerr (beats : Fin 4) (s : State) : Host.Outcome State Fault Refusal :=
  act s fun s =>
    match writeBackBurst s with
    | none => s
    | some (addr, d) =>
      let s1 := freeD (s.setDmem (s.dmem.writeBytes addr (d.take (4 * beats.val))))
      if s.epochs.walker.state = .writeBack then halt .dError s.epochs.walker.cursor s1 else s1

end Sys2Proof.Machine
end

