-- ==== Sys2Proof/Machine/Store.lean ====
section
/-! DEFINITION. The ends of MARKER writes, header writes and sweeps (R54, R74, R77, R78), and what they finish:
checkpoints, RELEASE, breaks, the start of a walk, SETTLING, and the stages of FORMAT. -/

namespace Sys2Proof.Machine

/-! ## FORMAT's stages (R141) -/

def setFormat (f : FormatStage) (s : State) : State := s.setEpochs { s.epochs with format := f }

/-- Copy A begins, unless an earlier header write is still in flight (R76, R77, R141). -/
def formatCopyA (s : State) : State :=
  if s.journal.header.inFlight.isNone then beginHeader .formatA .a 1 [] (setFormat .copyA s) else setFormat .copyA s

/-- The marker stage begins: epoch 1, the ring, and the MARKER of slot 0 (R72, R141). -/
def formatMarker (s : State) : State :=
  let s1 := s.setEpochs { s.epochs with
    table := [⟨1, 0, 1, 0, .format⟩], lastUsed := 1, format := .marker }
  let s2 := s1.setJournal { s1.journal with head := 0, tail := 1, occupied := 1, held := 0, sequence := 2 }
  beginMarker .format 1 ⟨0, 1⟩ .format 0 0 s2

/-- Copy B has ended: M0 goes to ACTIVE, the engine enters JOURNALING, FORMAT_DONE is posted (R56, R141). -/
def formatDone (s : State) : State :=
  let s1 := s.setMaps (s.maps.setState .m0 .active)
  post (.formatDone false) (s1.setEpochs { s1.epochs with engine := .journaling, format := .idle })

/-! ## The MARKER write (R74) -/

/-- A write waiting for its epoch's MARKER goes on: a capture has its bit set and its count raised first (R31, R35). -/
def releaseWaitMarker (s : State) : State :=
  match s.transit.access with
  | none => s
  | some a =>
    if a.stage = .waitMarker then
      setAccess { a with stage := .forward } (if a.slot.isSome then recordCapture (byteAddr a.ua) s else s)
    else s

/-- The REOPEN marker is complete (R135). -/
def reopenComplete (s : State) : State :=
  let s1 := s.setEpochs { s.epochs with
    walker := s.epochs.walker.stop, engine := .settling, pendingTarget := 0, settleDone := false }
  let s2 := requestHeader .settle s1
  s2.setMaps (swapMaps s2.maps)

/-- The sixth burst of a MARKER is acknowledged (R74, R93, R135, R141). -/
def markerDone (j : MarkerJob) (s : State) : State :=
  let s1 := releaseWaitMarker (setMarker .none s)
  match j.purpose with
  | .cut => requestHeader (.checkpoint j.epoch j.cause j.slot j.merged) s1
  | .format => if s.epochs.engine = .formatting ∧ s.epochs.format = .marker then formatCopyA s1 else s1
  | .reopen => if s.epochs.engine = .rollingBack ∧ s.epochs.walker.state = .reopen then reopenComplete s1 else s1

/-- MARKER_WRITE_DONE (R74): a burst of the MARKER is in the journal memory; the sixth completes it. -/
def execMarkerWriteDone (s : State) : Host.Outcome State Fault Refusal :=
  act s fun s =>
    match jOwned .marker s with
    | none => s
    | some b =>
      let s1 := endJ b s
      match b.live, s.journal.marker with
      | true, .inFlight j =>
        if j.bursts + 1 = 6 then markerDone j s1 else setMarker (.inFlight { j with bursts := j.bursts + 1 }) s1
      | true, .none => s1
      | true, .failed _ _ => s1
      | false, _ => s1

/-- The engine states that a failed MARKER or header write takes to FAULTED (R82). -/
def Engine.faults (e : Engine) : Bool :=
  match e with
  | .journaling => true
  | .rollingBack => true
  | .settling => true
  | .held => true
  | .offline => false
  | .formatting => false
  | .recovering => false
  | .faulted => false

/-- A MARKER write has failed (R74, R82, R142). -/
def markerFailed (j : MarkerJob) (s : State) : State :=
  let s1 := setMarker (.failed j.epoch j.slot) s
  if s.epochs.engine = .formatting then formatFail s1
  else if s.epochs.engine.faults then enterFaulted s1
  else s1

/-- MARKER_WRITE_JERR (R74). -/
def execMarkerWriteJerr (beats : Fin 4) (s : State) : Host.Outcome State Fault Refusal :=
  act s fun s =>
    match jOwned .marker s with
    | none => s
    | some b =>
      let s1 := post (.portError .markerWrite b.addr) (failJ b beats s)
      match b.live, s.journal.marker with
      | true, .inFlight j => markerFailed j s1
      | true, .none => s1
      | true, .failed _ _ => s1
      | false, _ => s1

/-! ## The header write (R77, R78) -/

/-- A write in WAIT_SPACE tests free again at a release completion (R110). -/
def retestSpace (s : State) : State :=
  match s.transit.access with
  | none => s
  | some a =>
    if a.stage = .waitSpace ∧ 2 ≤ s.free then
      startCapture a (s.setTransit { s.transit with timer := none })
    else s

/-- The RELEASE's request is done (R70, R102). -/
def releaseDone (s : State) : State :=
  let s1 := s.setJournal { s.journal with occupied := s.journal.occupied - s.journal.held, held := 0 }
  let s2 := if executing 0x0B s1 then answer .ok [] s1 else s1
  retestSpace (reevaluate s2)

/-- The break of epoch e is recorded (R106). -/
def breakRecorded (e : Word) (s : State) : State :=
  if s.epochs.latestBroken = e then
    let s1 := s.setEpochs { s.epochs with breakRecording := false }
    match s.transit.access with
    | none => s1
    | some a => if a.stage = .waitHeader then setAccess { a with stage := .forward } s1 else s1
  else s

/-- The checkpoint's request is done (R93). -/
def checkpointDone (e : Word) (c : Cause) (slot merged : Nat) (s : State) : State :=
  if s.epochs.ckptInFlight then
    reevaluate (post (.ckptDone e c slot merged) (s.setEpochs { s.epochs with ckptInFlight := false }))
  else s

/-- A request is reported done to its requester (R77). -/
def doneRequest (s : State) (r : HeaderRequest) : State :=
  match r with
  | .checkpoint e c slot merged => checkpointDone e c slot merged s
  | .release => releaseDone s
  | .brk e => breakRecorded e s
  | .start => if s.epochs.walker.state = .waitStart then walkBegin s else s
  | .startAborted => s
  | .settle => finishSettling (s.setEpochs { s.epochs with settleDone := true })
  | .recover => if s.epochs.engine = .recovering then recoverEnd .restored .journaling s else s

/-- A dirty flag starts the next write, with the requests attached to it (R77). -/
def beginDirty (s : State) : State :=
  if s.journal.header.dirty then beginRequested s.journal.header.next (clearDirty s) else s

/-- The header write in flight has ended. -/
def endHeader (s : State) : State := setHeader { s.journal.header with inFlight := none } s

/-- FORMAT goes on to copy A once an earlier header write has ended (R77, R140, R141). -/
def resumeFormat (s : State) : State :=
  if s.epochs.engine = .formatting ∧ s.epochs.format = .copyA then formatCopyA s else s

/-- The eighth burst of a header copy is acknowledged (R77, R141). Several requests attached to the write act in the order
in which they were made, before the next write begins (the model's choice and reading, logs 28 and 24). -/
def headerDone (j : HeaderJob) (s : State) : State :=
  let s1 := endHeader s
  match j.kind with
  | .requested => beginDirty (j.requests.foldl doneRequest s1)
  | .formatA => beginHeader .formatB .b 2 [] (setFormat .copyB s1)
  | .formatB => formatDone s1
  | .abandoned => resumeFormat s1

/-- HEADER_WRITE_DONE (R77): a burst of a header copy is in the journal memory; the eighth completes it. -/
def execHeaderWriteDone (s : State) : Host.Outcome State Fault Refusal :=
  act s fun s =>
    match jOwned .header s with
    | none => s
    | some b =>
      let s1 := endJ b s
      match s.journal.header.inFlight with
      | none => s1
      | some j =>
        if j.bursts + 1 = 8 then headerDone j s1
        else setHeader { s1.journal.header with inFlight := some { j with bursts := j.bursts + 1 } } s1

/-- A header write has failed (R78, R82, R140, R142). -/
def headerFailed (j : HeaderJob) (s : State) : State :=
  let s1 := endHeader s
  match j.kind with
  | .requested =>
    failRequests j.requests
      (if s.epochs.engine.faults then enterFaulted s1 else failRequests s1.journal.header.next (clearDirty s1))
  | .formatA => formatFail s1
  | .formatB => formatFail s1
  | .abandoned => resumeFormat s1

/-- HEADER_WRITE_JERR (R78). -/
def execHeaderWriteJerr (beats : Fin 4) (s : State) : Host.Outcome State Fault Refusal :=
  act s fun s =>
    match jOwned .header s with
    | none => s
    | some b =>
      let s1 := post (.portError .headerWrite b.addr) (failJ b beats s)
      match s.journal.header.inFlight with
      | none => s1
      | some j => headerFailed j s1

/-! ## The sweep (R54 to R57) -/

/-- A sweep FORMAT or RECOVER waits for has ended: one started under another window size is made again (R56), and
with both maps CLEAN the next stage begins. -/
def sweepStage (r : Sweep) (next : State → State) (s : State) : State :=
  if r.bits ≠ s.maps.bitsInUse then s.setMaps (requestSweep r.map s.maps)
  else if s.maps.m0.state = .clean ∧ s.maps.m1.state = .clean then next s
  else s

/-- The scan begins at the head slot (R147, R148). -/
def beginScan (h : Header) (s : State) : State := setRecovery (.scan h ⟨[], 0, h.headSlot, 0, 0, false⟩ []) s

/-- In SETTLING with no map ACTIVE the map just made CLEAN goes to ACTIVE (R54, R55). -/
def settleMap (i : MapId) (s : State) : State :=
  if s.maps.find .active = none then s.setMaps (s.maps.setState i .active) else s

/-- A sweep has completed (R54). -/
def sweepDone (r : Sweep) (s : State) : State :=
  let s1 := s.setMaps (endSweep s.maps)
  match s.epochs.engine with
  | .settling => finishSettling (settleMap r.map s1)
  | .formatting => if s.epochs.format = .sweep then sweepStage r formatMarker s1 else s1
  | .recovering =>
    match s.epochs.recovery with
    | .sweep h => sweepStage r (beginScan h) s1
    | .idle => s1
    | .copies _ => s1
    | .scan _ _ _ => s1
    | .load _ _ _ _ => s1
    | .header _ _ => s1
  | .journaling => reevaluate s1
  | .offline => s1
  | .rollingBack => s1
  | .held => s1
  | .faulted => s1

/-- SWEEP_COMPLETE (R54). -/
def execSweepComplete (s : State) : Host.Outcome State Fault Refusal :=
  act s fun s =>
    match s.maps.running with
    | none => s
    | some r => sweepDone r s

end Sys2Proof.Machine
end

