-- ==== Sys2Proof/Machine/Dispatch.lean ====
section
/-! DEFINITION. The meaning of every command: one arm for each constructor of Instr. -/

namespace Sys2Proof.Machine

/-- The effect of a command on everything but the queue. -/
def exec (i : Instr) (s : State) : Host.Outcome State Fault Refusal :=
  match i with
  | .powerOnReset jBeats dBeats => Sys2Proof.Machine.execPowerOnReset jBeats dBeats s
  | .systemReset => Sys2Proof.Machine.execSystemReset s
  | .accessArrival ua write burst priv => Sys2Proof.Machine.execAccessArrival ua write burst priv s
  | .forwardBeatAck ube data => Sys2Proof.Machine.execForwardBeatAck ube data s
  | .forwardDerr => Sys2Proof.Machine.execForwardDerr s
  | .oldDataBurstDone => Sys2Proof.Machine.execOldDataBurstDone s
  | .oldDataDerr => Sys2Proof.Machine.execOldDataDerr s
  | .recordWriteDone => Sys2Proof.Machine.execRecordWriteDone s
  | .recordWriteJerr beats => Sys2Proof.Machine.execRecordWriteJerr beats s
  | .markerWriteDone => Sys2Proof.Machine.execMarkerWriteDone s
  | .markerWriteJerr beats => Sys2Proof.Machine.execMarkerWriteJerr beats s
  | .headerWriteDone => Sys2Proof.Machine.execHeaderWriteDone s
  | .headerWriteJerr beats => Sys2Proof.Machine.execHeaderWriteJerr beats s
  | .sweepComplete => Sys2Proof.Machine.execSweepComplete s
  | .timeBaseTick => Sys2Proof.Machine.execTimeBaseTick s
  | .holdTimerExpiry => Sys2Proof.Machine.execHoldTimerExpiry s
  | .commitTaken => Sys2Proof.Machine.execCommitTaken s
  | .cutTaken => Sys2Proof.Machine.execCutTaken s
  | .rollbackStart => Sys2Proof.Machine.execRollbackStart s
  | .walkerSlotRead => Sys2Proof.Machine.execWalkerSlotRead s
  | .walkerReadJerr => Sys2Proof.Machine.execWalkerReadJerr s
  | .writeBackDone => Sys2Proof.Machine.execWriteBackDone s
  | .writeBackDerr beats => Sys2Proof.Machine.execWriteBackDerr beats s
  | .headerCopiesRead => Sys2Proof.Machine.execHeaderCopiesRead s
  | .scanSlotRead => Sys2Proof.Machine.execScanSlotRead s
  | .mapLoadRead => Sys2Proof.Machine.execMapLoadRead s
  | .recoveryReadJerr => Sys2Proof.Machine.execRecoveryReadJerr s
  | .readSlotDone => Sys2Proof.Machine.execReadSlotDone s
  | .readSlotJerr => Sys2Proof.Machine.execReadSlotJerr s
  | .transactionStart => Sys2Proof.Machine.execTransactionStart s
  | .transactionEnd => Sys2Proof.Machine.execTransactionEnd s
  | .responseDelivered => Sys2Proof.Machine.execResponseDelivered s
  | .lengthOverrun code tag len => Sys2Proof.Machine.execLengthOverrun code tag len s
  | .unknownCommandFrame code f => Sys2Proof.Machine.execUnknownCommandFrame code f s
  | .identify f => Sys2Proof.Machine.execIdentify f s
  | .getStatus f => Sys2Proof.Machine.execGetStatus f s
  | .writeRegion f => Sys2Proof.Machine.execWriteRegion f s
  | .readRegion f => Sys2Proof.Machine.execReadRegion f s
  | .commitRegions f => Sys2Proof.Machine.execCommitRegions f s
  | .revertStaged f => Sys2Proof.Machine.execRevertStaged f s
  | .setPolicy f => Sys2Proof.Machine.execSetPolicy f s
  | .format f => Sys2Proof.Machine.execFormat f s
  | .recover f => Sys2Proof.Machine.execRecover f s
  | .checkpoint f => Sys2Proof.Machine.execCheckpoint f s
  | .release f => Sys2Proof.Machine.execRelease f s
  | .rollback f => Sys2Proof.Machine.execRollback f s
  | .abort f => Sys2Proof.Machine.execAbort f s
  | .readEpochs f => Sys2Proof.Machine.execReadEpochs f s
  | .readNotice f => Sys2Proof.Machine.execReadNotice f s
  | .readSlot f => Sys2Proof.Machine.execReadSlot f s
  | .srstnDeasserted => Sys2Proof.Machine.execSrstnDeasserted s
  | .pornDeasserted => Sys2Proof.Machine.execPornDeasserted s

end Sys2Proof.Machine
end

