-- ==== Sys2Proof/Safety.lean ====
section
/-! DEFINITION. The words the statements are made of: how an access and a frame leave the state, the hypotheses under
which a command runs, and the laws every step keeps. -/

namespace Sys2Proof.Safety

open Sys2Proof.Machine

/-! ## Upstream accesses -/

/-- The access in progress is over, with these beats answered on the U-port: none in progress, the hold timer
stopped, its D burst off the port (R22, R45). -/
def accessOver (beats : List UBeat) (s : State) : State :=
  { s with
    transit.access := none
    transit.timer := none
    transit.answers := beats
    dport.burst := if s.dport.burst = some .transit then none else s.dport.burst }

/-- UERR on a beat: UD is zero on a read's, and the part drives no UD on a write's (R22). -/
def errBeat (write : Bool) : UBeat := .err (if write then none else some 0)

/-- The access boundary (R39): a claim that waits alone is taken, and two wait for their rows, whose order says which is
first (log 7). -/
def claimTaken (s : State) : State :=
  match s.transit.claims with
  | ⟨true, none, none⟩ => takeCommit s
  | ⟨false, some _, none⟩ => takeCut s
  | ⟨false, none, some _⟩ => takeStart s
  | _ => s

/-- An access that arrives is sampled, and no claim is left over (R21, R39). -/
abbrev arrivalReady (s : State) : Prop :=
  s.porn = false ∧ s.srstn = false ∧ s.transit.access = none ∧ s.transit.claims = Claims.none

/-- An access in progress, and no claim waiting for its end (R39). -/
abbrev carries (s : State) (a : Access) : Prop :=
  s.porn = false ∧ s.transit.access = some a ∧ s.transit.claims = Claims.none

/-- The access holds the D-port. -/
abbrev onD (s : State) (a : Access) : Prop := carries s a ∧ s.dport.burst = some .transit

/-- The access as it stands right after its arrival, in a transit state and with a slot (R21, R26). -/
def arrived (s : State) (ua : BitVec 24) (write burst priv : Bool) (result : MatchResult) (stage : Stage)
    (slot : Option SlotGrant) : State :=
  { s with
    transit.access := some
      { ua := ua, write := write, burst := burst, priv := priv, result := result, engineAt := s.epochs.engine
        stage := stage, acked := 0, slot := slot, oldBursts := 0, recBursts := 0, record := [], cut := .no }
    transit.answers := [] }

/-- A slot has been allocated at tail (R68). -/
def slotTaken (s : State) : State :=
  { s with
    journal.tail := if s.journal.tail + 1 < s.slotCount then s.journal.tail + 1 else 0
    journal.occupied := s.journal.occupied + 1
    journal.sequence := s.journal.sequence + 1 }

/-- A slot has been returned (R69). -/
def slotBack (s : State) : State :=
  { s with
    journal.tail := if s.journal.tail = 0 then s.slotCount - 1 else s.journal.tail - 1
    journal.occupied := s.journal.occupied - 1
    journal.sequence := s.journal.sequence - 1 }

/-- JOURNAL_LOW is posted when free was at least the threshold before an allocation and is below it now (R115). -/
def lowWater (before : Nat) (s : State) : State :=
  if s.journal.lowWater ≤ before ∧ s.free < s.journal.lowWater then post (.journalLow s.free) s else s

/-- One beat carried between the U-port and the protected memory: a write beat stores its enabled lanes and is answered
URDY; a read beat is answered URDY with the memory's bytes in the enabled lanes, and the command's own in the others
(log 9; which lanes an enable governs, log 30). -/
def beatCarried (a : Access) (ube : BitVec 4) (data : Word) (s : State) : State :=
  let at' := 4 * a.ua.toNat + 4 * a.acked
  { s with
    dmem := if a.write then s.dmem.writeLanes at' ube data else s.dmem
    transit.answers := s.transit.answers ++
      [if a.write then .rdy else .data (s.dmem.readLanes at' ube data)] }

/-! ## The block as a command finds it -/

/-- No claim is left over: claims wait only for an access in progress (R39). -/
abbrev settled (s : State) : Prop := s.transit.access = none → s.transit.claims = Claims.none

/-- PORn does not hold the block in reset, and no claim is left over. -/
abbrev live (s : State) : Prop := s.porn = false ∧ settled s

/-! ## J bursts -/

/-- A write burst of a claimant that still wants it is on the J-port (R61, R62). -/
abbrev writesJ (s : State) (c : JClient) (addr : Nat) (data : List Byte) : Prop :=
  live s ∧ s.journal.jport.burst = some ⟨c, addr, some data, true⟩

/-- A read burst of a claimant that still wants it is on the J-port (R61, R62). -/
abbrev readsJ (s : State) (c : JClient) (addr : Nat) : Prop :=
  live s ∧ s.journal.jport.burst = some ⟨c, addr, none, true⟩

/-- The J-port is free and the bytes of a write are in the journal memory (R61). -/
def landed (addr : Nat) (data : List Byte) (s : State) : State :=
  { s with journal.jport.burst := none, jmem := s.jmem.writeBytes addr data }

/-- The J-port is free. -/
def jFree (s : State) : State := { s with journal.jport.burst := none }

/-! ## A failure of the journal's own writes -/

/-- The response slot once these header requests have failed: a RELEASE among them is answered J_ERROR (R78, R102). -/
def releaseFailed (requests : List HeaderRequest) (slot : Slot) : Slot :=
  match slot with
  | .empty => .empty
  | .executing code tag lost =>
    if code = 0x0B ∧ HeaderRequest.release ∈ requests then .ready tag .jError [] lost else .executing code tag lost
  | .ready tag st data lost => .ready tag st data lost

/-- The engine has entered FAULTED: the checkpoint and the pending mark are dropped, the walker is stopped with its target
kept, its read burst on the J-port is wanted no more (log 14), the requests attached to the next header write have failed,
and the access in progress is cut (R37, R78, R82). -/
def faulted (s : State) : State :=
  let kept := s.journal.jport.burst.map fun b => if b.client = .walker then { b with live := false } else b
  cutAccess .faulted { s with
    epochs.engine := .faulted
    epochs.ckptInFlight := false
    epochs.pendingMark := 0
    epochs.walker := { Walker.powerOn with target := s.epochs.walker.target }
    journal.header.dirty := false
    journal.header.next := []
    journal.jport.burst := kept
    link.slot := releaseFailed s.journal.header.next s.link.slot }

/-! ## The completion of a header write -/

/-- A pending mark has been re-evaluated: with the cut conditions holding the cut is claimed, and taken at once while no
access is in progress (R98). -/
def markReevaluated (x : State) : State :=
  if x.epochs.engine = .journaling ∧ 0 < x.epochs.pendingMark ∧ cutFailure x = none then
    let y : State := { x with transit.claims.cut := some .mark, epochs.ckptInFlight := true }
    if x.transit.access.isNone then claimTaken y else y
  else x

/-- A write stalled in WAIT_SPACE has tested free again: with two slots free it takes one and enters READ_OLD, its hold
timer stopped (R110). -/
def spaceRetested (x : State) : State :=
  match x.transit.access with
  | none => x
  | some a =>
    if a.stage = .waitSpace ∧ 2 ≤ x.free then
      { lowWater x.free (slotTaken x) with
        transit.timer := none
        transit.access := some
          { a with stage := .readOld, slot := some ⟨x.journal.tail, x.journal.sequence⟩, oldBursts := 0 } }
    else x

/-- The response slot once a RELEASE has been done (R102). -/
def releaseAnswered (slot : Slot) : Slot :=
  match slot with
  | .empty => .empty
  | .executing code tag lost => if code = 0x0B then .ready tag .ok [] lost else .executing code tag lost
  | .ready tag st data lost => .ready tag st data lost

/-- What a requester does when its header request is reported done: a checkpoint ends (R93), a RELEASE frees its held slots
(R102), a break counts as recorded and lets a write in WAIT_HEADER go on (R106), a walk begins (R122), SETTLING ends when
a map is ACTIVE (R136), and RECOVER ends with RESTORED (R153). A request nobody waits for any more does nothing. -/
def requestDone (r : HeaderRequest) (x : State) : State :=
  match r with
  | .checkpoint e c slot merged =>
    if x.epochs.ckptInFlight then
      markReevaluated (post (.ckptDone e c slot merged) { x with epochs.ckptInFlight := false })
    else x
  | .release =>
    spaceRetested (markReevaluated { x with
      journal.occupied := x.journal.occupied - x.journal.held
      journal.held := 0
      link.slot := releaseAnswered x.link.slot })
  | .brk e =>
    if x.epochs.latestBroken = e then
      { x with
        epochs.breakRecording := false
        transit.access := x.transit.access.map fun a =>
          if a.stage = .waitHeader then { a with stage := .forward } else a }
    else x
  | .start =>
    if x.epochs.walker.state = .waitStart then
      { x with epochs.walker :=
        { x.epochs.walker with
          state := .read
          cursor := if x.journal.tail = 0 then x.slotCount - 1 else x.journal.tail - 1
          sequence := x.journal.sequence - 1
          expected := x.epochs.table.length - 1
          buffer := [], bursts := 0, abort := false } }
    else x
  | .startAborted => x
  | .settle =>
    let y : State := { x with epochs.settleDone := true }
    if x.epochs.engine = .settling ∧ (x.maps.m0.state = .active ∨ x.maps.m1.state = .active) then
      post (.rollbackDone x.epochs.walker.target x.currentEpoch) { y with epochs.engine := .journaling }
    else y
  | .recover => if x.epochs.engine = .recovering then recoverEnd .restored .journaling x else x

/-- A set dirty flag is cleared and the next write begins, to the other copy, with the state as it stands and the requests
that waited; a clear one leaves everything (R76, R77). -/
def nextCopyBegun (x : State) : State :=
  let generation := x.journal.header.generation + 1
  let copy : Copy := if x.journal.header.last = some .a then .b else .a
  if x.journal.header.dirty then
    { x with journal.header := ⟨generation, some copy, false, [],
        some ⟨copy, generation, (headerOf x generation).encode, 0, x.journal.header.next, .requested⟩⟩ }
  else x

/-! ## Frames -/

/-- The slot is EMPTY at byte c: empty already, or a response that went out whole by then with no frame lost
(R166, R167). -/
abbrev slotFreeAt (c : Nat) (l : Link) : Prop :=
  l.slot = .empty ∨ (l.mso ≠ [] ∧ l.mso.length ≤ c ∧ l.lostHere = false)

/-- The link after a frame of c bytes has been judged and the slot filled (R159, R161). -/
def linkAfter (c : Nat) (slot : Slot) (l : Link) : Link :=
  { framer := .discard, slot := slot, mso := if l.mso.length ≤ c then [] else l.mso, clocked := c
    lostHere := l.lostHere }

/-- A complete frame of the transaction is judged: its CRC-8 agrees and the slot is EMPTY (R159, R161). -/
abbrev frameJudged (code : Byte) (f : Frame) (s : State) : Prop :=
  live s ∧ s.link.framer = .first ∧ s.link.clocked ≤ 5 + f.params.length ∧
    f.check = crc8 (frameChecked code f) ∧ slotFreeAt (5 + f.params.length) s.link

/-- The frame passes every test of R161 and its command is executed (R163). -/
abbrev frameExecutes (code : Byte) (f : Frame) (s : State) : Prop :=
  frameJudged code f s ∧ paramLength code = some f.params.length

/-- The frame's command has been answered, and nothing else has changed (R163). -/
def answered (f : Frame) (st : Status) (data : List Byte) (s : State) : State :=
  { s with link := linkAfter (5 + f.params.length) (.ready f.tag st data false) s.link }

/-- The frame's command holds the response slot (R163). -/
def holding (code : Byte) (f : Frame) (s : State) : State :=
  { s with link := linkAfter (5 + f.params.length) (.executing code f.tag false) s.link }

/-! ## The laws every step keeps -/

/-- Both memories are in canonical form (log 2). -/
structure MemoriesCanonical (s : State) : Prop where
  protectedMemory : s.dmem.wf = true
  journalMemory : s.jmem.wf = true

/-- The notice list holds at most one entry of each kind, counting 1 to 255 occurrences (R173). -/
structure NoticesLawful (s : State) : Prop where
  oneOfAKind : (s.notices.list.map fun e => e.notice.kind).Nodup
  counts : ∀ e ∈ s.notices.list, 1 ≤ e.count ∧ e.count ≤ 255

/-- The stages and flags that belong to an engine state exist in it alone, and the geometry and the window with it
(R63, R81, R82, R87, R88, R96, R121, R141). -/
structure EngineLaw (s : State) : Prop where
  walk : s.epochs.engine = .rollingBack ↔ s.epochs.walker.state ≠ .stopped
  recovery : s.epochs.engine = .recovering ↔ s.epochs.recovery ≠ .idle
  format : s.epochs.engine = .formatting ↔ s.epochs.format ≠ .idle
  copyA : ∀ j : HeaderJob, s.journal.header.inFlight = some j → j.kind = .formatA → s.epochs.format = .copyA
  copyB : ∀ j : HeaderJob, s.journal.header.inFlight = some j → j.kind = .formatB → s.epochs.format = .copyB
  formatMarker : ∀ j : MarkerJob, s.epochs.engine = .formatting → s.journal.marker = .inFlight j →
    s.epochs.format = .marker
  claimed : s.epochs.startClaimed = s.transit.claims.start.isSome
  claimedIn : s.epochs.startClaimed = true → s.epochs.engine ∈ [.journaling, .held, .faulted]
  mark : 0 < s.epochs.pendingMark → s.epochs.engine = .journaling ∧ s.epochs.startClaimed = false
  marks : s.epochs.pendingMark ≤ 255
  checkpoint : s.epochs.ckptInFlight = true → s.epochs.engine = .journaling ∧ s.epochs.startClaimed = false
  window : s.maps.window = s.journal.geometry.map fun g => g.window
  absent : s.epochs.engine = .offline → s.journal.geometry = none
  present : s.epochs.engine ∉ [.offline, .recovering] → s.journal.geometry.isSome = true
  unwritten : s.epochs.engine ∈ [.offline, .recovering] → s.journal.marker = .none ∧
    ((∀ (h : Header) (sc : Scan), s.epochs.recovery ≠ .header h sc) →
      s.journal.header.inFlight = none ∧ s.journal.header.next = [])
  read : s.epochs.engine = .recovering →
    (s.journal.geometry = none ↔ ∃ buf : List Byte, s.epochs.recovery = .copies buf)

/-- The capture maps: never two ACTIVE, one ACTIVE wherever captures can be made or undone, SWEEPING exactly while a
sweep runs or waits, and a CLEAN one for the cut that waits (R48 to R57, R90). -/
structure MapLaw (s : State) : Prop where
  one : ¬ (s.maps.m0.state = .active ∧ s.maps.m1.state = .active)
  active : s.epochs.engine ∈ [.journaling, .rollingBack, .held] → s.maps.m0.state = .active ∨ s.maps.m1.state = .active
  running : ∀ r : Sweep, s.maps.running = some r → (s.maps.get r.map).state = .sweeping
  queued : ∀ q : MapId, s.maps.queued = some q → (s.maps.get q).state = .sweeping ∧
    ∃ r : Sweep, s.maps.running = some r ∧ r.map ≠ q
  sweeping : ∀ i : MapId, (s.maps.get i).state = .sweeping →
    s.maps.queued = some i ∨ ∃ r : Sweep, s.maps.running = some r ∧ r.map = i
  formatting : s.epochs.format ∈ [.marker, .copyA, .copyB] → s.maps.m0.state = .clean ∧ s.maps.m1.state = .clean
  scanning : ∀ (h : Header) (sc : Scan) (buf : List Byte), s.epochs.recovery = .scan h sc buf →
    s.maps.m0.state = .clean ∧ s.maps.m1.state = .clean
  loading : ∀ (h : Header) (sc : Scan) (ld : MapLoad) (buf : List Byte),
    s.epochs.recovery = .load h sc ld buf ∨ s.epochs.recovery = .header h sc →
    s.maps.m0.state = .active ∧ s.maps.m1.state = .clean
  cutIn : s.transit.claims.cut.isSome = true → s.epochs.engine ≠ .offline ∧ s.epochs.engine ≠ .recovering ∧
    (s.transit.access ≠ none → s.epochs.engine ∈ [.journaling, .faulted, .formatting])
  cutClean : s.transit.claims.cut.isSome = true → s.epochs.engine = .journaling →
    s.maps.m0.state = .clean ∨ s.maps.m1.state = .clean

/-- The access in progress is where its action and the engine state let it be; and a write to captured memory that is
being forwarded in JOURNALING has its granule's old bytes captured in the current epoch, whose MARKER is written, or
belongs to a broken epoch recorded as such (R27, R31, R35, R37, R104 to R109). -/
structure AccessLaw (s : State) (a : Access) : Prop where
  beats : a.acked < beatsOf a.burst
  stage : a.stage ≠ .answer
  action : a.result.action ≠ .guard
  governed : a.result.action.governed = true → a.cut = .no →
    s.epochs.engine = a.engineAt ∧ (a.engineAt = .offline ∨ a.engineAt = .journaling)
  capturing : a.stage ≠ .forward → a.write = true ∧ a.result.action.governed = true ∧ a.cut = .no ∧
    s.epochs.engine = .journaling
  slot : a.stage = .readOld ∨ a.stage = .writeRecord → a.slot.isSome = true
  waiting : a.stage = .waitMarker → a.slot = none → bitSet s (byteAddr a.ua) = true
  broken : a.stage = .waitHeader → currentBroken s = true
  timer : s.transit.timer.isSome = true ↔ a.stage = .waitSpace
  writeAhead : a.stage = .forward → a.write = true → a.result.action.governed = true → a.cut = .no →
    s.epochs.engine = .journaling →
    (bitSet s (byteAddr a.ua) = true ∧ markerComplete s s.currentEpoch = true) ∨
      (currentBroken s = true ∧ s.epochs.breakRecording = false)

/-- The laws of the upstream side (R26, R31, R37, R45). -/
structure TransitLaw (s : State) : Prop where
  access : ∀ a : Access, s.transit.access = some a → AccessLaw s a
  idle : s.transit.access = none → s.transit.timer = none
  port : s.dport.burst = some .transit → ∃ a : Access, s.transit.access = some a ∧
    (a.stage = .forward ∨ a.stage = .readOld)

/-- The epoch table: at most sixteen entries, their numbers rising, none 0, none above the last number used, and a
current epoch wherever a journal is at work (R83 to R85, R89, R148 to R151). -/
structure EpochLaw (s : State) : Prop where
  room : s.epochs.table.length ≤ 16
  rising : (s.epochs.table.map fun e => e.epoch.toNat).Pairwise (· < ·)
  numbered : ∀ e ∈ s.epochs.table, 1 ≤ e.epoch.toNat ∧ e.epoch.toNat ≤ s.epochs.lastUsed.toNat
  cut : s.transit.claims.cut.isSome = true → s.epochs.engine = .journaling → s.epochs.table.length < 16
  current : s.epochs.engine ∈ [.journaling, .rollingBack, .settling, .held] → s.epochs.table ≠ []
  formatted : s.epochs.format ∈ [.marker, .copyA, .copyB] → s.epochs.table.length = 1
  rebuilt : ∀ (h : Header) (sc : Scan) (ld : MapLoad) (buf : List Byte),
    s.epochs.recovery = .load h sc ld buf ∨ s.epochs.recovery = .header h sc → s.epochs.table ≠ []
  scanned : ∀ (h : Header) (sc : Scan) (buf : List Byte), s.epochs.recovery = .scan h sc buf →
    sc.entries.length ≤ 16 ∧ (sc.records = 0 ↔ sc.entries = []) ∧
    (sc.entries.map fun e => e.epoch.toNat).Pairwise (· < ·) ∧
    ∀ e ∈ sc.entries, 1 ≤ e.epoch.toNat ∧ e.epoch.toNat ≤ sc.epoch.toNat

end Sys2Proof.Safety
end

