-- ==== Sys2Proof/Certificates/Slice0/Obligations.lean ====
section
/-! DEFINITION. The statements for the provers. Where a next state is given as `arbitrate x`, x is the effect of the
command and `arbitrate` the grants of the two port arbiters that follow in the same step (the model's choice, log 22;
the statement Arbiters says what they are). Frame commands are given as whole frames (the model's choice, log 19). -/

open Sys2Proof Sys2Proof.Machine Sys2Proof.Safety

/-! ## The queue, the reset lines, the claims (R39 to R42, R46) -/

/-- A step runs the command at the front of the queue on the state with the queue's rest. On an empty queue the block
idles: that clause is the model's choice (log 16). -/
def Obligations.StepRunsFrontCommand : Prop :=
  (∀ (s : State) (c : Instr) (rest : List Instr),
    s.pending = c :: rest → step s = exec c { s with pending := rest }) ∧
  ∀ s : State, s.pending = [] → step s = .next s

/-- Every command answers a next state in every state, leaves the queue alone, and only the four commands of the reset
lines move a reset line.

That a command in a state in which it cannot come about still answers a next state is the model's choice (log 4). -/
def Obligations.EveryCommandAnswers : Prop :=
  ∀ (c : Instr) (s : State), ∃ t : State, exec c s = .next t ∧ t.pending = s.pending ∧
    (t.porn = match c with
      | .powerOnReset _ _ => true
      | .pornDeasserted => false
      | _ => s.porn) ∧
    (t.srstn = match c with
      | .systemReset => true
      | .srstnDeasserted => false
      | _ => s.srstn)

/-- The values of State.reset that the manual gives for power-on.

The queue of waiting commands is the model's own. -/
def Obligations.ResetValues : Prop :=
  let s := State.reset
  (∀ i : Fin 12, s.regions.staged[i] = ⟨false, 0, 0, .normal, .capture⟩ ∧
    s.regions.active[i] = ⟨false, 0, 0, .normal, .capture⟩) ∧
  s.transit.access = none ∧ s.transit.buffer = [] ∧ s.transit.claims = ⟨false, none, none⟩ ∧
  s.transit.timer = none ∧ s.transit.fullMode = .stall ∧ s.transit.holdLimit = 500 ∧ s.transit.clockRate = 100 ∧
  s.maps.m0.state = .dirty ∧ s.maps.m1.state = .dirty ∧ s.maps.window = none ∧ s.maps.running = none ∧
  s.maps.queued = none ∧
  s.journal.geometry = none ∧ s.journal.head = 0 ∧ s.journal.tail = 0 ∧ s.journal.occupied = 0 ∧
  s.journal.held = 0 ∧ s.journal.sequence = 0 ∧ s.journal.marker = .none ∧ s.journal.lowWater = 32 ∧
  s.journal.header = ⟨0, none, false, [], none⟩ ∧ s.journal.jport.last = .readSlot ∧ s.journal.jport.burst = none ∧
  s.epochs.engine = .offline ∧ s.epochs.table = [] ∧ s.epochs.lastUsed = 0 ∧ s.epochs.latestBroken = 0 ∧
  s.epochs.breakRecording = false ∧ s.epochs.pendingTarget = 0 ∧ s.epochs.pendingMark = 0 ∧
  s.epochs.ckptInFlight = false ∧ s.epochs.startClaimed = false ∧
  s.epochs.walker.state = .stopped ∧ s.epochs.walker.target = 0 ∧ s.epochs.walker.abort = false ∧
  s.epochs.walker.buffer = [] ∧
  s.dport = ⟨.walker, none⟩ ∧ s.link.framer = .idle ∧ s.link.slot = .empty ∧
  s.notices.list = [] ∧ s.notices.mask = 0 ∧ s.attn = false ∧ s.pending = []

/-- POWER_ON_RESET in any state: every block at its power-on values; the map bits are not cleared; the memories keep
their contents, the acknowledged beats of a J write burst and of a write-back burst among them (logs 10 and 20 say what
the model adds: the bits' contents and how the acknowledged beats are counted; the values for which the manual gives none
are those of log 12).

While PORn stays asserted no command but those of the reset lines has an effect (the model's reading, log 5), and
the reset lines move alone.

PORN_DEASSERTED and SRSTN_DEASSERTED in any state move their line and nothing else. -/
def Obligations.ResetLines : Prop :=
  (∀ (j d : Fin 4) (s : State), exec (.powerOnReset j d) s = .next
     { State.reset with
       porn := true
       srstn := s.srstn
       maps := ⟨⟨.dirty, s.maps.m0.bits⟩, ⟨.dirty, s.maps.m1.bits⟩, none, none, none⟩
       dmem := match s.dport.burst with
         | some (.walker addr data) => s.dmem.writeBytes addr (data.take (4 * d.val))
         | _ => s.dmem
       jmem := match s.journal.jport.burst with
         | some ⟨_, addr, some data, _⟩ => s.jmem.writeBytes addr (data.take (4 * j.val))
         | _ => s.jmem
       fresh := s.fresh
       pending := s.pending }) ∧
  (∀ (c : Instr) (s : State), s.porn = true →
     match c with
     | .powerOnReset _ _ => True
     | .pornDeasserted => exec c s = .next { s with porn := false }
     | .systemReset => exec c s = .next { s with srstn := true }
     | .srstnDeasserted => exec c s = .next { s with srstn := false }
     | _ => exec c s = .next s) ∧
  (∀ s : State, exec .pornDeasserted s = .next { s with porn := false } ∧
     exec .srstnDeasserted s = .next { s with srstn := false })

/-- SYSTEM_RESET by transit state, with no claim waiting: the access is over with no more beats answered, its slot
returned in READ_OLD and WRITE_RECORD, its bit and count recorded in WAIT_MARKER, and nothing else changed. -/
def Obligations.SystemResetAbandons : Prop :=
  ∀ s : State,
    (s.porn = false → s.transit.access = none → exec .systemReset s = .next (arbitrate { s with srstn := true })) ∧
    ∀ a : Access, carries s a →
      let r : State := { s with srstn := true }
      let ends (x : State) : Host.Outcome State Fault Refusal := .next (arbitrate (accessOver s.transit.answers x))
      (a.stage = .forward ∨ a.stage = .waitSpace ∨ a.stage = .waitHeader ∨ a.stage = .answer →
        exec .systemReset s = ends r) ∧
      (a.stage = .readOld → a.slot.isSome → exec .systemReset s = ends (slotBack r)) ∧
      (a.stage = .writeRecord → a.slot.isSome →
        (s.journal.jport.burst.all fun b => decide (b.client ≠ .record)) → exec .systemReset s = ends (slotBack r)) ∧
      (∀ b : JBurst, a.stage = .writeRecord → a.slot.isSome → s.journal.jport.burst = some b → b.client = .record →
        exec .systemReset s = ends (slotBack { r with journal.jport.burst := some { b with live := false } })) ∧
      (a.stage = .waitMarker → a.slot.isSome → exec .systemReset s = ends (recordCapture (byteAddr a.ua) r)) ∧
      (a.stage = .waitMarker → a.slot = none → exec .systemReset s = ends r)

/-- Claims wait for the upstream access alone: those left over with no access in progress are taken before any command
but their own and the reset lines' comes about, a commit beside another claim in either order (which of the two is a free
value, log 8). USTB is not read while an access is in progress or SRSTn is asserted.

When they are taken is the model's reading of "at one boundary" (log 7). -/
def Obligations.LeftoverClaims : Prop :=
  (∀ (c : Instr) (s : State), s.porn = false → s.transit.access = none → s.transit.claims ≠ Claims.none →
    (settle s).transit.claims = Claims.none ∧
    match c with
    | .powerOnReset _ _ | .pornDeasserted | .systemReset | .srstnDeasserted | .commitTaken | .cutTaken
    | .rollbackStart => True
    | _ => exec c s = exec c (settle s)) ∧
  (∀ s : State, s.transit.access = none → s.transit.claims ≠ Claims.none →
    (s.transit.claims.commit = false → settle s = arbitrate (takeStart (takeCut s))) ∧
    (s.transit.claims.cut = none → s.transit.claims.start = none → settle s = arbitrate (takeCommit s)) ∧
    let u : State := { s with fresh := s.fresh + 1 }
    (s.transit.claims.commit = true → s.transit.claims.cut.isSome ∨ s.transit.claims.start.isSome →
      settle s = arbitrate (takeStart (takeCut (takeCommit u))) ∨
      settle s = arbitrate (takeCommit (takeStart (takeCut u))))) ∧
  ∀ (s : State) (ua : BitVec 24) (write burst priv : Bool), live s → s.srstn = true ∨ s.transit.access.isSome →
    exec (.accessArrival ua write burst priv) s = .next (arbitrate s)

/-- At the access boundary a claim that waits alone is taken by its own command, and the end of an access takes it in the
same step: the last beat, the UERR after a beat presented before a cut, DERR on a forward or on an old-data read, JERR on
a record burst, and SYSTEM_RESET in every transit state. Two claims are left to their commands.

The last beat of a mark write stands in ForwardBeat, the ends by a change of engine state in EngineChangeCutsAccess.

That the end and the taking happen in one step, and that two claims wait for their rows, is the model's choice (log 7). -/
def Obligations.BoundaryTakesTheClaim : Prop :=
  (∀ s : State, s.porn = false → s.transit.access = none →
     let takes (c : Instr) : Prop := exec c s = .next (arbitrate (claimTaken s))
     (s.transit.claims = ⟨true, none, none⟩ → takes .commitTaken) ∧
     (∀ b : CutBy, s.transit.claims = ⟨false, some b, none⟩ → takes .cutTaken) ∧
     (∀ k : Word, s.transit.claims = ⟨false, none, some k⟩ → takes .rollbackStart)) ∧
  (∀ (s : State) (a : Access), s.porn = false → s.transit.access = some a →
     let ends (c : Instr) (beats : List UBeat) (x : State) : Prop :=
       exec c s = .next (arbitrate (claimTaken (accessOver beats x)))
     let told := s.transit.answers ++ [errBeat a.write]
     (a.stage = .forward → s.dport.burst = some .transit →
       ends .forwardDerr told s ∧
       ∀ (ube : BitVec 4) (data : Word), let t := Safety.beatCarried a ube data s
         (a.acked + 1 = beatsOf a.burst → (a.write && a.result.action.marks) = false →
           ends (.forwardBeatAck ube data) t.transit.answers t) ∧
         (a.acked + 1 < beatsOf a.burst → a.cut = .afterBeat →
           ends (.forwardBeatAck ube data) (t.transit.answers ++ [errBeat a.write]) t)) ∧
     (a.stage = .readOld → s.dport.burst = some .transit → ends .oldDataDerr told
       (post (.portError .oldDataRead (granuleOf (4 * a.ua.toNat) + 16 * a.oldBursts))
         (slotBack { s with dport.burst := none }))) ∧
     (∀ (addr : Nat) (data : List Byte) (beats : Fin 4), a.stage = .writeRecord →
       s.journal.jport.burst = some ⟨.record, addr, some data, true⟩ → ends (.recordWriteJerr beats) told
         (post (.portError .recordWrite addr) (slotBack (landed addr (data.take (4 * beats.val)) s)))) ∧
     (let r : State := { s with srstn := true }
      let abandoned (x : State) : Prop := ends .systemReset s.transit.answers x
      (a.stage = .forward ∨ a.stage = .waitSpace ∨ a.stage = .waitHeader ∨ a.stage = .answer → abandoned r) ∧
      (a.stage = .readOld → a.slot.isSome → abandoned (slotBack r)) ∧
      (a.stage = .writeRecord → a.slot.isSome → abandoned (slotBack (disownJ .record r))) ∧
      (a.stage = .waitMarker → a.slot.isSome → abandoned (recordCapture (byteAddr a.ua) r)) ∧
      (a.stage = .waitMarker → a.slot = none → abandoned r)))

/-! ## The region table and the match (chapter 1) -/

/-- A region matches an access: enabled, the class admits the cycle, and the region address agrees with the base in
every bit the mask does not cover. Bit i of the region address is bit 8 + i of UA[25:2]. -/
def Obligations.RegionMatches : Prop :=
  ∀ (r : Region) (ua : BitVec 24) (priv : Bool), r.hits ua priv = true ↔
    r.enabled = true ∧
    (r.cls = .either ∨ (r.cls = .normal ∧ priv = false) ∨ (r.cls = .privileged ∧ priv = true)) ∧
    ∀ i : Nat, i < 16 → r.mask.getLsbD i = false → ua.getLsbD (8 + i) = r.base.getLsbD i

/-- The effective action of a write, and the GUARD region handed over with it; the effective action of a read. -/
def Obligations.EffectiveAction : Prop :=
  ∀ (tab : Vector Region 12) (ua : BitVec 24) (priv : Bool),
    let some' (p : Policy) : Prop := ∃ i : Fin 12, tab[i].policy = p ∧ tab[i].hits ua priv = true
    let captured : Prop := some' .capture ∧ ¬ some' .exempt
    let w := matchAccess tab ua true priv
    let r := matchAccess tab ua false priv
    (some' .guard → w.action = .guard ∧ ∃ i : Fin 12, w.guardRegion = some i.val ∧ tab[i].policy = .guard ∧
      tab[i].hits ua priv = true ∧ ∀ j : Fin 12, j < i → tab[j].policy = .guard → tab[j].hits ua priv = false) ∧
    (¬ some' .guard → captured → some' .mark → w = ⟨.captureMark, none⟩) ∧
    (¬ some' .guard → captured → ¬ some' .mark → w = ⟨.capture, none⟩) ∧
    (¬ some' .guard → ¬ captured → some' .mark → w = ⟨.mark, none⟩) ∧
    (¬ some' .guard → ¬ captured → ¬ some' .mark → w = ⟨.pass, none⟩) ∧
    (captured → r = ⟨.capture, none⟩) ∧ (¬ captured → r = ⟨.pass, none⟩)

/-- The containment test of an enabled CAPTURE region under an aligned window in the protected memory: what it compares;
a region that passes has its whole match set inside the window, each granule of it too; one that fails matches some
access outside. Every other region passes. -/
def Obligations.ContainmentKeepsAccessesInside : Prop :=
  ∀ (r : Region) (w : Window), w.aligned = true →
    (r.enabled = false ∨ r.policy ≠ .capture → r.contained w = true) ∧
    (r.enabled = true → r.policy = .capture →
      (r.contained w = true ↔ ∀ j : Nat, 20 + w.code ≤ j → j ≤ 25 →
        r.mask.getLsbD (j - 10) = false ∧ r.base.getLsbD (j - 10) = w.base.testBit j) ∧
      (r.contained w = true → ∀ (ua : BitVec 24) (priv : Bool), r.hits ua priv = true →
        w.base ≤ byteAddr ua ∧ byteAddr ua < w.base + w.size ∧
        w.base ≤ granuleOf (byteAddr ua) ∧ granuleOf (byteAddr ua) + 64 ≤ w.base + w.size ∧
        w.index (byteAddr ua) < w.bits) ∧
      (r.contained w = false → ∃ (ua : BitVec 24) (priv : Bool), r.hits ua priv = true ∧
        ¬ (w.base ≤ byteAddr ua ∧ byteAddr ua < w.base + w.size)))

/-- WRITE_REGION: the five fields of the indexed staged entry are replaced, or BAD_PARAM and nothing changed.

READ_REGION: the index, then the staged and the active entry, each as enabled, base, mask, class and policy. -/
def Obligations.RegionEntries : Prop :=
  (∀ (f : Frame) (s : State), frameExecutes 0x03 f s →
     (∀ (i : Fin 12) (e : Bool) (base mask : BitVec 16) (c : RegionClass) (p : Policy),
       f.params = [BitVec.ofNat 8 i.val, Bool.code e] ++ be16 base ++ be16 mask ++ [c.code, p.code] →
       exec (.writeRegion f) s =
         .next (answered f .ok [] { s with regions.staged := s.regions.staged.set i ⟨e, base, mask, c, p⟩ })) ∧
     (12 ≤ (byteAt f.params 0).toNat ∨ 2 ≤ (byteAt f.params 1).toNat ∨ 3 ≤ (byteAt f.params 6).toNat ∨
         4 ≤ (byteAt f.params 7).toNat →
       exec (.writeRegion f) s = .next (answered f .badParam [] s))) ∧
  (∀ (f : Frame) (s : State), frameExecutes 0x04 f s →
     let entry (r : Region) : List Byte :=
       [Bool.code r.enabled] ++ be16 r.base ++ be16 r.mask ++ [r.cls.code, r.policy.code]
     (∀ i : Fin 12, f.params = [BitVec.ofNat 8 i.val] → exec (.readRegion f) s = .next (answered f .ok
       ([BitVec.ofNat 8 i.val] ++ entry s.regions.staged[i] ++ entry s.regions.active[i]) s)) ∧
     (12 ≤ (byteAt f.params 0).toNat → exec (.readRegion f) s = .next (answered f .badParam [] s)))

/-- REVERT_STAGED in every engine state: the active table is copied into the staged one, the answer is OK. -/
def Obligations.RevertStaged : Prop :=
  ∀ (f : Frame) (s : State), frameExecutes 0x06 f s →
    exec (.revertStaged f) s = .next (answered f .ok [] { s with regions.staged := s.regions.active })

/-- COMMIT_REGIONS: refused by the engine state, refused for a region outside the window, taken at once while no access
is in progress and no other claim waits, and otherwise claimed with the response slot held.

COMMIT_TAKEN: at the boundary a waiting commit copies the staged table into the active one and is answered OK, or is
refused WRONG_STATE when the engine state no longer allows it; a cut or a rollback start that waits beside it is taken
next, on the state the commit left (R18, R40), and two that wait beside it are left to their commands. While an access is
in progress, or with no commit waiting, the command has no effect but the arbiters' (log 4).

The order of two claims at one boundary is the queue's (log 7). -/
def Obligations.CommitRegions : Prop :=
  (∀ (f : Frame) (s : State), frameExecutes 0x05 f s →
     (s.epochs.engine ∈ [.formatting, .recovering, .rollingBack, .settling, .held] →
       exec (.commitRegions f) s = .next (arbitrate (answered f .wrongState [] s))) ∧
     (∀ (g : Geometry) (i : Nat), s.epochs.engine = .journaling ∨ s.epochs.engine = .faulted →
       s.journal.geometry = some g → firstOutside s.regions.staged g.window = some i →
       exec (.commitRegions f) s = .next (arbitrate (answered f .badRegion [BitVec.ofNat 8 i, 0x01] s))) ∧
     ((s.epochs.engine = .offline ∨ (s.epochs.engine = .journaling ∨ s.epochs.engine = .faulted) ∧
         ∃ g : Geometry, s.journal.geometry = some g ∧ firstOutside s.regions.staged g.window = none) →
       (s.transit.access = none → s.transit.claims.cut = none → s.transit.claims.start = none →
         exec (.commitRegions f) s = .next (arbitrate (answered f .ok []
           { s with regions.active := s.regions.staged, transit.claims.commit := false }))) ∧
       (s.transit.access.isSome →
         exec (.commitRegions f) s = .next (arbitrate (holding 0x05 f { s with transit.claims.commit := true }))))) ∧
  (∀ (s : State) (code tag : Byte) (lost : Bool), s.porn = false → s.link.slot = .executing code tag lost →
     (s.transit.access = none → s.transit.claims.commit = true →
       let taken : State := { s with
         transit.claims.commit := false
         regions.active := s.regions.staged
         link.slot := .ready tag .ok [] lost }
       let turnedAway : State := { s with transit.claims.commit := false, link.slot := .ready tag .wrongState [] lost }
       let then' (x : State) : Host.Outcome State Fault Refusal := match s.transit.claims.cut, s.transit.claims.start with
         | none, none => .next (arbitrate x)
         | some _, none => exec .cutTaken x
         | none, some _ => exec .rollbackStart x
         | some _, some _ => .next (arbitrate x)
       (s.epochs.engine ∈ [.offline, .journaling, .faulted] → exec .commitTaken s = then' taken) ∧
       (s.epochs.engine ∈ [.formatting, .recovering, .rollingBack, .settling, .held] →
         exec .commitTaken s = then' turnedAway)) ∧
     (s.transit.access.isSome ∨ s.transit.claims.commit = false → exec .commitTaken s = .next (arbitrate s)))

/-! ## Arrival and dispatch (sections 2.1 to 2.5, chapter 6) -/

/-- A malformed burst is answered UERR whatever it matches; nothing else happens. With the UERR of a read UD is zero.

A guarded write, in every engine state: UERR, GUARD_HIT with address, class and region, and nothing else.

A capture-governed access in an engine state that refuses it: UERR, with UD zero on a read, REFUSED_ACCESS, and nothing
else. -/
def Obligations.ArrivalAnsweredWithError : Prop :=
  (∀ (s : State) (ua : BitVec 24) (write priv : Bool), arrivalReady s → ua.toNat % 4 ≠ 0 →
     exec (.accessArrival ua write true priv) s = .next (arbitrate (accessOver [errBeat write] s))) ∧
  (∀ (s : State) (ua : BitVec 24) (burst priv : Bool) (k : Nat), arrivalReady s → malformed burst ua = false →
     matchAccess s.regions.active ua true priv = ⟨.guard, some k⟩ →
     exec (.accessArrival ua true burst priv) s =
       .next (arbitrate (post (.guardHit (4 * ua.toNat) priv k) (accessOver [errBeat true] s)))) ∧
  (∀ (s : State) (ua : BitVec 24) (write burst priv : Bool), arrivalReady s → malformed burst ua = false →
     (matchAccess s.regions.active ua write priv).action ∈ [.capture, .captureMark] →
     s.epochs.engine ∈ [.formatting, .recovering, .rollingBack, .settling, .held, .faulted] →
     exec (.accessArrival ua write burst priv) s =
       .next (arbitrate (post (.refusedAccess (4 * ua.toNat) write s.epochs.engine) (accessOver [errBeat write] s))))

/-- Accesses that are forwarded at once: pass and mark in every engine state, capture-governed ones in OFFLINE, and
capture-governed reads in JOURNALING.

A capture-governed write in JOURNALING, the first two tests of R31: in a broken epoch it is forwarded uncaptured,
or waits for the break's header write; with its bit set it is forwarded, or waits for the epoch's MARKER. -/
def Obligations.ArrivalForwarded : Prop :=
  (∀ (s : State) (ua : BitVec 24) (write burst priv : Bool), arrivalReady s → malformed burst ua = false →
     let m := matchAccess s.regions.active ua write priv
     (m.action ∈ [.pass, .mark] ∨
       (m.action ∈ [.capture, .captureMark] ∧
         (s.epochs.engine = .offline ∨ (s.epochs.engine = .journaling ∧ write = false)))) →
     exec (.accessArrival ua write burst priv) s =
       .next (arbitrate (arrived s ua write burst priv m .forward none))) ∧
  (∀ (s : State) (ua : BitVec 24) (burst priv : Bool), arrivalReady s → malformed burst ua = false →
     s.epochs.engine = .journaling →
     let m := matchAccess s.regions.active ua true priv
     m.action ∈ [.capture, .captureMark] →
     let goes (x : Stage) : Prop :=
       exec (.accessArrival ua true burst priv) s = .next (arbitrate (arrived s ua true burst priv m x none))
     (s.currentEpoch ≠ 0 → s.currentEpoch = s.epochs.latestBroken →
       (s.epochs.breakRecording = true → goes .waitHeader) ∧ (s.epochs.breakRecording = false → goes .forward)) ∧
     (s.currentEpoch ≠ s.epochs.latestBroken → bitSet s (4 * ua.toNat) = true →
       (markerComplete s s.currentEpoch = true → goes .forward) ∧
       (markerComplete s s.currentEpoch = false → goes .waitMarker)))

/-- The third test of R31: the bit is clear and free is at least 2, so the slot at tail is taken with the next sequence
number, the low-water test is made, and the write enters READ_OLD. -/
def Obligations.CaptureBegins : Prop :=
  ∀ (s : State) (ua : BitVec 24) (burst priv : Bool), arrivalReady s → malformed burst ua = false →
    s.epochs.engine = .journaling → s.currentEpoch ≠ s.epochs.latestBroken → bitSet s (4 * ua.toNat) = false →
    2 ≤ s.free →
    let m := matchAccess s.regions.active ua true priv
    m.action ∈ [.capture, .captureMark] →
    exec (.accessArrival ua true burst priv) s = .next (arbitrate (arrived (lowWater s.free (slotTaken s))
      ua true burst priv m .readOld (some ⟨s.journal.tail, s.journal.sequence⟩)))

/-- The fourth test of R31 under STALL: the write enters WAIT_SPACE with the hold timer loaded, CAPTURE_STALL is posted,
and nothing else changes.

The fourth test of R31 under BREAK, and the hold timer's expiry: the current epoch becomes the latest broken one, the
break-recording flag is set, a header write is requested, EPOCH_BROKEN is posted, and the write waits
in WAIT_HEADER.

The expiry is a command of its own (log 6). -/
def Obligations.FullJournal : Prop :=
  (∀ (s : State) (ua : BitVec 24) (burst priv : Bool), arrivalReady s → malformed burst ua = false →
     s.epochs.engine = .journaling → s.currentEpoch ≠ s.epochs.latestBroken → bitSet s (4 * ua.toNat) = false →
     s.free < 2 → s.transit.fullMode = .stall →
     let m := matchAccess s.regions.active ua true priv
     m.action ∈ [.capture, .captureMark] →
     exec (.accessArrival ua true burst priv) s = .next (arbitrate (post (.captureStall (4 * ua.toNat) s.currentEpoch)
       { arrived s ua true burst priv m .waitSpace none with transit.timer := some s.transit.holdLimit }))) ∧
  ((∀ (s : State) (ua : BitVec 24) (burst priv : Bool), arrivalReady s → malformed burst ua = false →
     s.epochs.engine = .journaling → s.currentEpoch ≠ s.epochs.latestBroken → bitSet s (4 * ua.toNat) = false →
     s.free < 2 → s.transit.fullMode = .brk →
     let m := matchAccess s.regions.active ua true priv
     m.action ∈ [.capture, .captureMark] →
     exec (.accessArrival ua true burst priv) s =
       .next (arbitrate (post (.epochBroken s.currentEpoch .fullBreak) (requestHeader (.brk s.currentEpoch)
         { arrived s ua true burst priv m .waitHeader none with
           epochs.latestBroken := s.currentEpoch, epochs.breakRecording := true })))) ∧
   ∀ (s : State) (a : Access), s.porn = false → s.transit.access = some a → a.stage = .waitSpace →
     s.transit.timer = some 0 →
     exec .holdTimerExpiry s =
       .next (arbitrate (post (.epochBroken s.currentEpoch .holdExpired) (requestHeader (.brk s.currentEpoch)
         { s with
           transit.access := some { a with stage := .waitHeader }
           transit.timer := none
           epochs.latestBroken := s.currentEpoch
           epochs.breakRecording := true }))))

/-- TIME_BASE_TICK: a running hold timer falls by one, a stopped one stays stopped, and the next tick has the length set
now; nothing else changes. That a timer at 0 stays there until HOLD_TIMER_EXPIRY, a command of its own, is the model's
choice (log 6).

HOLD_TIMER_EXPIRY without a write in WAIT_SPACE whose timer has run out has no effect of its own (log 4).

A RELEASE's header write completes under a stalled write: with free at least 2 after the release the hold timer
stops, a slot is taken and the write enters READ_OLD; otherwise it waits on. -/
def Obligations.HoldTimer : Prop :=
  (∀ s : State, live s → exec .timeBaseTick s = .next { s with
     transit.timer := s.transit.timer.map fun n => n - 1
     transit.tickLength := s.transit.clockRate }) ∧
  (∀ s : State, live s →
     (∀ a : Access, s.transit.access = some a → a.stage = .waitSpace → s.transit.timer ≠ some 0) →
     exec .holdTimerExpiry s = .next (arbitrate s)) ∧
  (∀ (s : State) (addr : Nat) (data : List Byte) (j : HeaderJob) (a : Access) (tag : Byte) (lost : Bool),
     writesJ s .header addr data → s.journal.header.inFlight = some j → j.bursts = 7 → j.kind = .requested →
     j.requests = [.release] → s.journal.header.dirty = false → s.link.slot = .executing 0x0B tag lost →
     s.epochs.pendingMark = 0 → s.transit.access = some a → a.stage = .waitSpace →
     let t : State := { landed addr (data.take 16) s with
       journal.header.inFlight := none
       journal.occupied := s.journal.occupied - s.journal.held
       journal.held := 0
       link.slot := .ready tag .ok [] lost }
     (2 ≤ t.free → exec .headerWriteDone s = .next (arbitrate
       { lowWater t.free (slotTaken t) with
         transit.timer := none
         transit.access := some
           { a with stage := .readOld, slot := some ⟨s.journal.tail, s.journal.sequence⟩, oldBursts := 0 } })) ∧
     (t.free < 2 → exec .headerWriteDone s = .next (arbitrate t)))

/-! ## Forward, MARK requests, changes of engine state (R22 to R25, R37, R38, R97) -/

/-- FORWARD_BEAT_ACK: a beat before the last goes on; the last beat of an access that makes no MARK request ends it; an
access cut at the beat presented gets UERR on the next.

A mark write's last beat: the MARK request comes before the boundary. It is dropped outside JOURNALING and while a
rollback start is claimed; a failing cut condition leaves it pending and posts MARK_DEFERRED with the first reason.

The same with claims waiting: a rollback start that waits is taken after the request is dropped; a cut that waits takes
the request with it, the count raised and nothing posted; otherwise the request is deferred, or claims the cut beside what
waits. A cut claim left from FAULTED, with the flag clear, does not satisfy the request (log 14).

What a read beat carries in lanes whose enable is off is the command's operand (log 9). -/
def Obligations.ForwardBeat : Prop :=
  (∀ (s : State) (a : Access) (ube : BitVec 4) (data : Word), onD s a → a.stage = .forward →
     let t := Safety.beatCarried a ube data s
     (a.acked + 1 < beatsOf a.burst → a.cut ≠ .afterBeat →
       exec (.forwardBeatAck ube data) s =
         .next (arbitrate { t with transit.access := some { a with acked := a.acked + 1 } })) ∧
     (a.acked + 1 = beatsOf a.burst → (a.write && a.result.action.marks) = false →
       exec (.forwardBeatAck ube data) s = .next (arbitrate (accessOver t.transit.answers t))) ∧
     (a.acked + 1 < beatsOf a.burst → a.cut = .afterBeat →
       exec (.forwardBeatAck ube data) s = .next (arbitrate (accessOver (t.transit.answers ++ [errBeat a.write]) t)))) ∧
  (∀ (s : State) (a : Access) (ube : BitVec 4) (data : Word), onD s a → a.stage = .forward →
     a.acked + 1 = beatsOf a.burst → a.write = true → a.result.action ∈ [.mark, .captureMark] →
     let t := Safety.beatCarried a ube data s
     let done := accessOver t.transit.answers t
     (s.epochs.engine ≠ .journaling ∨ s.epochs.startClaimed = true →
       exec (.forwardBeatAck ube data) s = .next (arbitrate done)) ∧
     (s.epochs.engine = .journaling → s.epochs.startClaimed = false → ∀ reason : Status, cutFailure s = some reason →
       exec (.forwardBeatAck ube data) s = .next (arbitrate (post (.markDeferred reason)
         { done with epochs.pendingMark := min 255 (s.epochs.pendingMark + 1) }))) ∧
     (s.epochs.engine = .journaling → cutFailure s = none →
       exec (.forwardBeatAck ube data) s = .next (arbitrate (cut .mark
         { done with
           epochs.pendingMark := min 255 (s.epochs.pendingMark + 1)
           epochs.ckptInFlight := true })))) ∧
  (∀ (s : State) (a : Access) (ube : BitVec 4) (data : Word), s.porn = false → s.transit.access = some a →
     s.dport.burst = some .transit → a.stage = .forward → a.acked + 1 = beatsOf a.burst → a.write = true →
     a.result.action ∈ [.mark, .captureMark] →
     let t := Safety.beatCarried a ube data s
     let done := accessOver t.transit.answers t
     let counted : State := { done with epochs.pendingMark := min 255 (s.epochs.pendingMark + 1) }
     let ends (x : State) : Prop := exec (.forwardBeatAck ube data) s = .next (arbitrate (claimTaken x))
     (∀ k : Word, s.epochs.startClaimed = true → s.transit.claims = ⟨false, none, some k⟩ →
       exec (.forwardBeatAck ube data) s = exec .rollbackStart done) ∧
     (s.epochs.engine ≠ .journaling ∨ s.epochs.startClaimed = true → ends done) ∧
     (s.epochs.engine = .journaling → s.epochs.startClaimed = false →
       (∀ b : CutBy, s.epochs.ckptInFlight = true → s.transit.claims = ⟨false, some b, none⟩ →
         exec (.forwardBeatAck ube data) s = exec .cutTaken counted) ∧
       (s.epochs.ckptInFlight = true → s.transit.claims.cut.isSome → ends counted) ∧
       (s.epochs.ckptInFlight = false ∨ s.transit.claims.cut = none →
         (∀ reason : Status, cutFailure s = some reason → ends (post (.markDeferred reason) counted)) ∧
         (cutFailure s = none → ends
           { counted with epochs.ckptInFlight := true, transit.claims.cut := some .mark }))))

/-- FORWARD_DERR: UERR on the matching beat, with UD zero on a read, ends the access, whatever its action; no notice, no
MARK request, nothing else. -/
def Obligations.ForwardError : Prop :=
  ∀ (s : State) (a : Access), onD s a → a.stage = .forward →
    exec .forwardDerr s = .next (arbitrate (accessOver (s.transit.answers ++ [errBeat a.write]) s))

/-- What a beat does to a memory in canonical form, lane by lane, and what a read beat carries.

Bytes written at rising addresses of a memory in canonical form: each is read back where it was written, and every
other byte stands.

The canonical form is the model's (log 2), and so is byte enable j for lane j (log 30). -/
def Obligations.BytesInMemory : Prop :=
  (∀ (m : Memory) (a : Nat) (ube : BitVec 4) (w : Word), m.wf = true →
     (∀ j : Fin 4, (m.writeLanes a ube w).read (a + j.val) =
       if ube.getLsbD j.val then w.extractLsb' (8 * j.val) 8 else m.read (a + j.val)) ∧
     (∀ b : Nat, (b < a ∨ a + 4 ≤ b) → (m.writeLanes a ube w).read b = m.read b) ∧
     ∀ j : Fin 4, (m.readLanes a ube w).extractLsb' (8 * j.val) 8 =
       if ube.getLsbD j.val then m.read (a + j.val) else w.extractLsb' (8 * j.val) 8) ∧
  (∀ (m : Memory) (a : Nat) (bs : List Byte), m.wf = true →
     (∀ (i : Nat) (b : Byte), bs[i]? = some b → (m.writeBytes a bs).read (a + i) = b) ∧
     (∀ x : Nat, (x < a ∨ a + bs.length ≤ x) → (m.writeBytes a bs).read x = m.read x) ∧
     ∀ (n i : Nat), i < n → (m.readBytes a n)[i]? = some (m.read (a + i)))

/-- A change to an engine state that refuses a capture-governed access, while it waits with no record to settle or while
its D burst still waits for the arbiter: UERR, REFUSED_ACCESS with the new state, the hold timer stopped. Pass and mark
accesses, and accesses already cut, are left alone. A slot taken is returned on FAULTED and not on
FORMATTING; a complete record is recorded on FAULTED and not on FORMATTING; a record burst already granted runs on. A
claim that waits is taken at the access's end.

A forward that holds the D-port when the engine enters a refusing state: it is refused at once, or it keeps the beat
already presented, with its REFUSED_ACCESS posted at the change all the same (the model's choice, log 31). Which of the two
is a free value (log 8); whichever it is, the protected memory, the journal memory,
the ring, the epoch table and the maps are unchanged, but for what a claim taken at the access's end changes. -/
def Obligations.EngineChangeCutsAccess : Prop :=
  (∀ (s : State) (a : Access) (e : Engine), s.transit.access = some a →
     let refusedIn (f : Engine) (x : State) : State := claimTaken
       (post (.refusedAccess (4 * a.ua.toNat) a.write f) (accessOver (s.transit.answers ++ [errBeat a.write]) x))
     let refused := refusedIn e
     e ∈ [.formatting, .recovering, .rollingBack, .settling, .held, .faulted] →
     (a.result.action ∈ [.pass, .mark, .guard] ∨ a.cut ≠ .no → cutAccess e s = s) ∧
     (a.result.action ∈ [.capture, .captureMark] → a.cut = .no →
       (a.stage = .waitSpace ∨ a.stage = .waitHeader → cutAccess e s = refused s) ∧
       (a.stage = .forward → s.dport.burst ≠ some .transit → cutAccess e s = refused s) ∧
       (a.stage = .readOld → a.slot.isSome → cutAccess .faulted s = refusedIn .faulted (slotBack s)) ∧
       (a.stage = .writeRecord → a.slot.isSome →
         cutAccess .faulted s = refusedIn .faulted (slotBack (disownJ .record s))) ∧
       (a.stage = .waitMarker → a.slot = none → cutAccess .faulted s = refusedIn .faulted s) ∧
       (a.stage = .waitMarker → a.slot.isSome →
         cutAccess .faulted s = refusedIn .faulted (recordCapture (4 * a.ua.toNat) s)) ∧
       (a.stage = .readOld ∨ a.stage = .waitMarker → cutAccess .formatting s = refusedIn .formatting s) ∧
       (a.stage = .writeRecord → cutAccess .formatting s = refusedIn .formatting (disownJ .record s)))) ∧
  (∀ (s : State) (a : Access) (e : Engine), s.transit.access = some a → a.stage = .forward →
     s.dport.burst = some .transit → a.cut = .no → a.result.action ∈ [.capture, .captureMark] → e.refuses = true →
     let refusal : Notice := .refusedAccess (4 * a.ua.toNat) a.write e
     let u : State := { s with fresh := s.fresh + 1 }
     cutAccess e s = claimTaken (post refusal (accessOver (s.transit.answers ++ [errBeat a.write]) u)) ∨
     (a.acked + 1 = beatsOf a.burst ∧ cutAccess e s = { u with transit.access := some { a with cut := .completes } }) ∨
     (a.acked + 1 ≠ beatsOf a.burst ∧
       cutAccess e s = post refusal { u with transit.access := some { a with cut := .afterBeat } })) ∧
  (∀ (c : JClient) (s : State),
     let kept := s.journal.jport.burst.map fun b => if b.client = c then { b with live := false } else b
     disownJ c s = { s with journal.jport.burst := kept })

/-! ## Capture, MARKER and header writes (R32 to R36, R73 to R78) -/

/-- OLD_DATA_BURST_DONE: each burst puts sixteen bytes of the granule, in address order, into the capture buffer; the
fourth composes the UNDO record and the write enters WRITE_RECORD.

OLD_DATA_DERR and RECORD_WRITE_JERR: the slot is returned, PORT_ERROR names the burst, the write gets UERR and is not
forwarded; no map bit, no undo count and no engine state changes. Of a record burst the acknowledged beats stay written.

A record burst of a capture already given up runs to its end on the port, and its result is disregarded: the bytes
reach the journal memory and nothing else follows.

One command is one burst (log 3). -/
def Obligations.CaptureReadsAndFails : Prop :=
  (∀ (s : State) (a : Access), onD s a → a.stage = .readOld → a.oldBursts < 4 →
     let from' := granuleOf (4 * a.ua.toNat) + 16 * a.oldBursts
     let buffer := (if a.oldBursts = 0 then [] else s.transit.buffer) ++ s.dmem.readBytes from' 16
     let t : State := { s with transit.buffer := buffer, dport.burst := none }
     (a.oldBursts < 3 → exec .oldDataBurstDone s =
       .next (arbitrate { t with transit.access := some { a with oldBursts := a.oldBursts + 1 } })) ∧
     (∀ (g : Geometry) (k : SlotGrant), a.oldBursts = 3 → s.journal.geometry = some g → a.slot = some k →
       let record := undoRecord g.identity k.sequence s.currentEpoch (granuleOf (4 * a.ua.toNat)) buffer
       let a' : Access := { a with oldBursts := 4, stage := .writeRecord, recBursts := 0, record := record }
       exec .oldDataBurstDone s = .next (arbitrate { t with transit.access := some a' }))) ∧
  (∀ (s : State) (a : Access),
     (onD s a → a.stage = .readOld → exec .oldDataDerr s = .next (arbitrate
       (accessOver (s.transit.answers ++ [errBeat a.write])
         (post (.portError .oldDataRead (granuleOf (4 * a.ua.toNat) + 16 * a.oldBursts))
           (slotBack { s with dport.burst := none }))))) ∧
     ∀ (addr : Nat) (data : List Byte) (beats : Fin 4), carries s a → a.stage = .writeRecord →
       writesJ s .record addr data → exec (.recordWriteJerr beats) s = .next (arbitrate
         (accessOver (s.transit.answers ++ [errBeat a.write])
           (post (.portError .recordWrite addr) (slotBack (landed addr (data.take (4 * beats.val)) s)))))) ∧
  (∀ (s : State) (addr : Nat) (data : List Byte) (beats : Fin 4), live s →
     s.journal.jport.burst = some ⟨.record, addr, some data, false⟩ →
     exec .recordWriteDone s = .next (arbitrate (landed addr (data.take 16) s)) ∧
     exec (.recordWriteJerr beats) s = .next (arbitrate (landed addr (data.take (4 * beats.val)) s)))

/-- RECORD_WRITE_DONE: each burst lands in the journal memory; the sixth makes the record complete, and the write is
forwarded with its bit set and its count raised, or waits for its epoch's MARKER with neither.

A capture recorded (by the forward path, by R37 or by R42): the granule's bit is set in the ACTIVE map, every other
bit, map state, the window and the sweeps stand, and the undo count of the last entry alone rises by one.

One command is one burst (log 3). -/
def Obligations.RecordWritten : Prop :=
  (∀ (s : State) (a : Access) (addr : Nat) (data : List Byte), s.transit.access = some a → a.stage = .writeRecord →
     writesJ s .record addr data →
     let t := landed addr (data.take 16) s
     (a.recBursts + 1 ≠ 6 → exec .recordWriteDone s =
       .next (arbitrate { t with transit.access := some { a with recBursts := a.recBursts + 1 } })) ∧
     (a.recBursts + 1 = 6 → markerComplete s s.currentEpoch = true → exec .recordWriteDone s =
       .next (arbitrate { recordCapture (4 * a.ua.toNat) t with
         transit.access := some { a with recBursts := 6, stage := .forward } })) ∧
     (a.recBursts + 1 = 6 → markerComplete s s.currentEpoch = false → exec .recordWriteDone s =
       .next (arbitrate { t with transit.access := some { a with recBursts := 6, stage := .waitMarker } }))) ∧
  (∀ (a : Nat) (s : State) (w : Window) (i : MapId), s.maps.find .active = some i → s.maps.window = some w →
     let t := recordCapture a s
     bitSet t a = true ∧
     (∀ k : Nat, k ≠ w.index a → ((t.maps.get i).bits.contains k = (s.maps.get i).bits.contains k)) ∧
     (∀ j : MapId, (t.maps.get j).state = (s.maps.get j).state ∧ (j ≠ i → t.maps.get j = s.maps.get j)) ∧
     t = { s with maps := t.maps, epochs.table := t.epochs.table } ∧
     t.maps.window = s.maps.window ∧ t.maps.running = s.maps.running ∧ t.maps.queued = s.maps.queued ∧
     (∀ (l : List Entry) (e : Entry), s.epochs.table = l ++ [e] →
       t.epochs.table = l ++ [{ e with undo := e.undo + 1 }]))

/-- Middle bursts of a MARKER and of a header copy: the bytes land, the count of bursts rises, nothing else follows.

The record, marker and header bursts granted go out in ascending order: burst n of a slot's record to the slot's J
address plus 16 n with its bytes 16 n to 16 n + 15; a header copy likewise from its base. The reads go out in ascending
order too, each at its slot's address plus the bytes read of it; RECOVER's first, of the copies, from 0000h on.

One command is one burst (log 3). -/
def Obligations.WriteBurstsLand : Prop :=
  (∀ (s : State) (addr : Nat) (data : List Byte),
     (∀ j : MarkerJob, writesJ s .marker addr data → s.journal.marker = .inFlight j → j.bursts + 1 ≠ 6 →
       exec .markerWriteDone s = .next (arbitrate
         { landed addr (data.take 16) s with journal.marker := .inFlight { j with bursts := j.bursts + 1 } })) ∧
     (∀ j : HeaderJob, writesJ s .header addr data → s.journal.header.inFlight = some j → j.bursts + 1 ≠ 8 →
       exec .headerWriteDone s = .next (arbitrate
         { landed addr (data.take 16) s with journal.header.inFlight := some { j with bursts := j.bursts + 1 } }))) ∧
  (∀ s : State,
     (∀ (a : Access) (g : SlotGrant), s.transit.access = some a → a.slot = some g →
       jBurst s .record = ⟨.record, 0x100 + 96 * g.slot + 16 * a.recBursts,
         some ((a.record.drop (16 * a.recBursts)).take 16), true⟩) ∧
     (∀ j : MarkerJob, s.journal.marker = .inFlight j →
       jBurst s .marker = ⟨.marker, 0x100 + 96 * j.slot + 16 * j.bursts,
         some ((j.record.drop (16 * j.bursts)).take 16), true⟩) ∧
     (∀ j : HeaderJob, s.journal.header.inFlight = some j →
       jBurst s .header = ⟨.header, (if j.copy = .a then 0 else 0x80) + 16 * j.bursts,
         some ((j.buffer.drop (16 * j.bursts)).take 16), true⟩) ∧
     jBurst s .walker = ⟨.walker, 0x100 + 96 * s.epochs.walker.cursor + s.epochs.walker.buffer.length, none, true⟩ ∧
     (∀ buf : List Byte, s.epochs.recovery = .copies buf →
       jBurst s .recovery = ⟨.recovery, buf.length, none, true⟩) ∧
     (∀ (h : Header) (sc : Scan) (buf : List Byte), s.epochs.recovery = .scan h sc buf →
       jBurst s .recovery = ⟨.recovery, 0x100 + 96 * sc.slot + buf.length, none, true⟩) ∧
     (∀ (h : Header) (sc : Scan) (ld : MapLoad) (buf : List Byte), s.epochs.recovery = .load h sc ld buf →
       jBurst s .recovery = ⟨.recovery, 0x100 + 96 * ld.slot + buf.length, none, true⟩) ∧
     ∀ j : ReadSlotJob, s.journal.readSlot = some j →
       jBurst s .readSlot = ⟨.readSlot, 0x100 + 96 * j.slot + j.buffer.length, none, true⟩)

/-- An UNDO record and a MARKER as written: 96 bytes that a reader judges VALID, with the fields they were given at the
offsets of the layout, byte k of a field its bits 8k+7 to 8k, and zeros in the fill and in the fields of the other kind.

A header copy as written: 128 bytes, the same way, that are valid when read back, with every field as it was. -/
def Obligations.LayoutsRoundTrip : Prop :=
  let half (bs : List Byte) (off : Nat) (x : BitVec 16) : Prop :=
    bs[off]? = some (x.extractLsb' 0 8) ∧ bs[off + 1]? = some (x.extractLsb' 8 8)
  let word (bs : List Byte) (off : Nat) (x : Word) : Prop :=
    bs[off]? = some (x.extractLsb' 0 8) ∧ bs[off + 1]? = some (x.extractLsb' 8 8) ∧
    bs[off + 2]? = some (x.extractLsb' 16 8) ∧ bs[off + 3]? = some (x.extractLsb' 24 8)
  let causeByte (c : Cause) : Byte := match c with
    | .format => 0x01
    | .manual => 0x02
    | .mark => 0x03
    | .manualAndMark => 0x04
    | .reopen => 0x05
  (∀ (identity sequence epoch : Word), epoch ≠ 0 →
     (∀ (granule : Nat) (old : List Byte), granule < 4294967296 → granule % 64 = 0 → old.length = 64 →
       let bs := undoRecord identity sequence epoch granule old
       bs.length = 96 ∧ verdict (some identity) bs = .valid ∧
       Record.decode bs =
         ⟨0x01, 0x00, crc16 (clearCheck bs 2), identity, sequence, epoch, granule, 0, 0, old⟩ ∧
       bs[0]? = some 0x01 ∧ bs[1]? = some 0x00 ∧ half bs 2 (crc16 (bs.take 2 ++ [0, 0] ++ bs.drop 4)) ∧
       word bs 4 identity ∧ word bs 8 sequence ∧ word bs 12 epoch ∧ word bs 16 (BitVec.ofNat 32 granule) ∧
       (bs.drop 20).take 12 = List.replicate 12 0 ∧ bs.drop 32 = old) ∧
     (∀ (cause : Cause) (merged : Nat) (reopenedFrom : Word), merged < 256 →
       (cause = .reopen ↔ reopenedFrom ≠ 0) →
       let bs := markerRecord identity sequence epoch cause merged reopenedFrom
       bs.length = 96 ∧ verdict (some identity) bs = .valid ∧
       Record.decode bs = ⟨0x02, cause.code, crc16 (clearCheck bs 2), identity, sequence, epoch, 0, reopenedFrom,
         BitVec.ofNat 8 merged, List.replicate 64 0⟩ ∧
       bs[0]? = some 0x02 ∧ bs[1]? = some (causeByte cause) ∧
       half bs 2 (crc16 (bs.take 2 ++ [0, 0] ++ bs.drop 4)) ∧
       word bs 4 identity ∧ word bs 8 sequence ∧ word bs 12 epoch ∧ word bs 16 0 ∧ word bs 20 reopenedFrom ∧
       bs[24]? = some (BitVec.ofNat 8 merged) ∧ bs.drop 25 = List.replicate 71 0)) ∧
  (∀ h : Header, h.sizeCode < 256 → h.slotCount < 4294967296 → h.windowBase < 4294967296 → h.headSlot < 4294967296 →
     let bs := h.encode
     bs.length = 128 ∧ headerValid bs = true ∧ Header.decode bs = h ∧
     bs.take 4 = [0x57, 0x4A, 0x48, 0x31] ∧ half bs 4 (crc16 (bs.take 4 ++ [0, 0] ++ bs.drop 6)) ∧
     bs[6]? = some (BitVec.ofNat 8 h.sizeCode) ∧ bs[7]? = some 0x00 ∧ word bs 8 h.generation ∧
     word bs 12 h.identity ∧ word bs 16 (BitVec.ofNat 32 h.slotCount) ∧
     word bs 20 (BitVec.ofNat 32 h.windowBase) ∧ word bs 24 (BitVec.ofNat 32 h.headSlot) ∧
     word bs 28 h.headSequence ∧ word bs 32 h.headEpoch ∧ word bs 36 h.latestBroken ∧
     word bs 40 h.pendingTarget ∧ bs.drop 44 = List.replicate 84 0)

/-- A header write request: in FAULTED it fails at once; with no write in flight a write begins to the other copy with
the next generation and carries the state at hand; with one in flight the dirty flag is set and the request waits.

The values a header copy carries.

A dirty flag at the end of a header write: the flag is cleared and the next write begins at once to the other copy,
with the requests that waited and the state as it stands then. The write that ends here carried a break, whose flag
clears and whose waiting write goes on; or a RELEASE, whose slots are free before the next copy is made. Every other
request, and several merged on one write, stand in HeaderWriteComplete.

That the requester acts before the next write begins is the model's reading (log 24). -/
def Obligations.HeaderRequested : Prop :=
  (∀ (r : HeaderRequest) (s : State),
     (s.epochs.engine = .faulted → requestHeader r s = failRequest s r) ∧
     (s.epochs.engine ≠ .faulted → s.journal.header.inFlight = none →
       let generation := s.journal.header.generation + 1
       let copy : Copy := if s.journal.header.last = some .a then .b else .a
       requestHeader r s = { s with
         journal.header.generation := generation
         journal.header.last := some copy
         journal.header.inFlight := some
           ⟨copy, generation, (headerOf s generation).encode, 0, [r], .requested⟩ }) ∧
     (∀ j : HeaderJob, s.epochs.engine ≠ .faulted → s.journal.header.inFlight = some j →
       requestHeader r s = { s with
         journal.header.dirty := true
         journal.header.next := s.journal.header.next ++ [r] })) ∧
  (∀ (s : State) (generation : Word) (g : Geometry) (first : Entry) (rest : List Entry),
     s.journal.geometry = some g → s.epochs.table = first :: rest →
     headerOf s generation =
       { sizeCode := g.window.code, generation := generation, identity := g.identity, slotCount := g.slotCount
         windowBase := g.window.base, headSlot := s.journal.head, headSequence := first.sequence
         headEpoch := first.epoch, latestBroken := s.epochs.latestBroken, pendingTarget := s.epochs.pendingTarget }) ∧
  (∀ (s : State) (addr : Nat) (data : List Byte) (j : HeaderJob), writesJ s .header addr data →
     s.journal.header.inFlight = some j → j.bursts = 7 → j.kind = .requested →
     s.journal.header.dirty = true →
     let generation := s.journal.header.generation + 1
     let copy : Copy := if s.journal.header.last = some .a then .b else .a
     let begun (x : State) : State := { x with journal.header := ⟨generation, some copy, false, [],
       some ⟨copy, generation, (headerOf x generation).encode, 0, s.journal.header.next, .requested⟩⟩ }
     let t := landed addr (data.take 16) s
     (j.requests = [.brk s.epochs.latestBroken] →
       ((s.transit.access.all fun a => decide (a.stage ≠ .waitHeader)) →
         exec .headerWriteDone s = .next (arbitrate (begun { t with epochs.breakRecording := false }))) ∧
       ∀ a : Access, s.transit.access = some a → a.stage = .waitHeader →
         exec .headerWriteDone s = .next (arbitrate (begun { t with
           epochs.breakRecording := false
           transit.access := some { a with stage := .forward } }))) ∧
     (∀ (tag : Byte) (lost : Bool), j.requests = [.release] → s.link.slot = .executing 0x0B tag lost →
       s.epochs.engine ≠ .journaling ∨ s.epochs.pendingMark = 0 →
       (s.transit.access.all fun a => decide (a.stage ≠ .waitSpace)) →
       exec .headerWriteDone s = .next (arbitrate (begun { t with
         journal.occupied := s.journal.occupied - s.journal.held
         journal.held := 0
         link.slot := .ready tag .ok [] lost }))))

/-- The sixth burst of a cut's MARKER: the marker write state is none, a write waiting for the MARKER goes on (with a
slot, its bit set and its count raised first), and the checkpoint's header write is requested.

The sixth burst of FORMAT's MARKER begins copy A with generation 1, or leaves it to the end of a header write still in
flight; that of a REOPEN marker stops the walker, enters SETTLING with no pending target, requests the header write and
makes the settling swap.

The swap: the ACTIVE map is to be swept; the other map becomes ACTIVE when it is CLEAN, and when it is SWEEPING no map is
ACTIVE and the old one waits behind the running sweep. -/
def Obligations.MarkerComplete : Prop :=
  (∀ (s : State) (addr : Nat) (data : List Byte) (j : MarkerJob), writesJ s .marker addr data →
     s.journal.marker = .inFlight j → j.bursts = 5 → j.purpose = .cut →
     let t : State := { landed addr (data.take 16) s with journal.marker := .none }
     let asks (x : State) : Host.Outcome State Fault Refusal :=
       .next (arbitrate (requestHeader (.checkpoint j.epoch j.cause j.slot j.merged) x))
     (s.transit.access = none → exec .markerWriteDone s = asks t) ∧
     ∀ a : Access, s.transit.access = some a →
       (a.stage ≠ .waitMarker → exec .markerWriteDone s = asks t) ∧
       (a.stage = .waitMarker → a.slot = none →
         exec .markerWriteDone s = asks { t with transit.access := some { a with stage := .forward } }) ∧
       (a.stage = .waitMarker → a.slot.isSome → exec .markerWriteDone s =
         asks { recordCapture (4 * a.ua.toNat) t with transit.access := some { a with stage := .forward } })) ∧
  (∀ (s : State) (addr : Nat) (data : List Byte) (j : MarkerJob), writesJ s .marker addr data →
     s.journal.marker = .inFlight j → j.bursts = 5 → (s.transit.access.all fun a => decide (a.stage ≠ .waitMarker)) →
     let t : State := { landed addr (data.take 16) s with journal.marker := .none }
     (j.purpose = .format → s.epochs.engine = .formatting → s.epochs.format = .marker →
       s.journal.header.inFlight = none →
       let u : State := { t with epochs.format := .copyA }
       exec .markerWriteDone s = .next (arbitrate { u with
         journal.header.generation := 1
         journal.header.last := some .a
         journal.header.inFlight := some ⟨.a, 1, (headerOf u 1).encode, 0, [], .formatA⟩ })) ∧
     (∀ h : HeaderJob, j.purpose = .format → s.epochs.engine = .formatting → s.epochs.format = .marker →
       s.journal.header.inFlight = some h →
       exec .markerWriteDone s = .next (arbitrate { t with epochs.format := .copyA })) ∧
     (j.purpose = .reopen → s.epochs.engine = .rollingBack → s.epochs.walker.state = .reopen →
       let u := requestHeader .settle { t with
         epochs.walker := { Walker.powerOn with target := s.epochs.walker.target }
         epochs.engine := .settling
         epochs.pendingTarget := 0
         epochs.settleDone := false }
       exec .markerWriteDone s = .next (arbitrate { u with maps := swapMaps u.maps }))) ∧
  (∀ (m : CaptureMaps) (i o : MapId) (w : Window), m.window = some w → (m.get i).state = .active → o ≠ i →
     m.queued = none →
     let old : CaptureMap := ⟨.sweeping, (m.get i).bits⟩
     ((m.get o).state = .clean → m.running = none →
       swapMaps m = { (m.put i old).put o ⟨.active, (m.get o).bits⟩ with running := some ⟨i, w.bits⟩ }) ∧
     ∀ r : Sweep, (m.get o).state = .sweeping → m.running = some r → r.map = o →
       swapMaps m = { m.put i old with queued := some i })

/-- JERR on a MARKER burst: the acknowledged beats stay, PORT_ERROR names the burst, the marker write state is failed. In
JOURNALING, ROLLING_BACK, SETTLING and HELD the engine enters FAULTED with the checkpoint flag and the pending mark cleared
and the walker stopped; the requests attached to the next header write fail with the dirty flag cleared, a RELEASE among
them answered J_ERROR; an access in progress is cut as EngineChangeCutsAccess says. Of FORMAT's MARKER, FORMAT_DONE with
J_ERROR follows the PORT_ERROR. In FAULTED nothing more happens. -/
def Obligations.MarkerError : Prop :=
  ∀ (s : State) (addr : Nat) (data : List Byte) (j : MarkerJob) (beats : Fin 4), writesJ s .marker addr data →
    s.journal.marker = .inFlight j →
    let t : State := { post (.portError .markerWrite addr) (landed addr (data.take (4 * beats.val)) s) with
      journal.marker := .failed j.epoch j.slot }
    (s.epochs.engine ∈ [.journaling, .rollingBack, .settling, .held] →
      exec (.markerWriteJerr beats) s = .next (arbitrate (faulted t))) ∧
    (s.epochs.engine = .formatting → exec (.markerWriteJerr beats) s = .next (arbitrate (post (.formatDone true)
      { t with epochs.engine := .faulted, epochs.format := .idle }))) ∧
    (s.epochs.engine = .faulted → exec (.markerWriteJerr beats) s = .next (arbitrate t))

/-- The eighth burst of a header copy that carries one request, of a checkpoint, a RELEASE, a break, a rollback start or a
RECOVER: what each requester does, while no mark is pending in JOURNALING and no write is stalled, and with the dirty flag
set the next write then begins, with the state as it stands and the requests that waited (log 24). A request that nobody
waits for any more completes and nothing further happens: of a start ended by ABORT, of a break whose epoch is no longer
the latest broken one (the model's reading, log 23), of a checkpoint whose flag is clear. The pending mark's re-evaluation
at a checkpoint's or a RELEASE's end stands in CutConditions, the stalled write's in HoldTimer.

The eighth burst of any requested copy, whatever number of requests it carries: all of them are reported done by this one
command, in the order in which they were made (the model's choice, log 28), a pending mark and a stalled write included,
and then a set dirty flag begins the next write. -/
def Obligations.HeaderWriteComplete : Prop :=
  (∀ (s : State) (addr : Nat) (data : List Byte) (j : HeaderJob) (r : HeaderRequest), writesJ s .header addr data →
    s.journal.header.inFlight = some j → j.bursts = 7 → j.kind = .requested → j.requests = [r] →
    let t : State := { landed addr (data.take 16) s with journal.header.inFlight := none }
    let done (x : State) : Prop := exec .headerWriteDone s = .next (arbitrate (nextCopyBegun x))
    (∀ (e : Word) (c : Cause) (slot merged : Nat), r = .checkpoint e c slot merged → s.epochs.ckptInFlight = true →
      s.epochs.engine = .journaling → s.epochs.pendingMark = 0 →
      done (post (.ckptDone e c slot merged) { t with epochs.ckptInFlight := false })) ∧
    (∀ (tag : Byte) (lost : Bool), r = .release → s.link.slot = .executing 0x0B tag lost →
      s.epochs.engine ≠ .journaling ∨ s.epochs.pendingMark = 0 →
      (s.transit.access.all fun a => decide (a.stage ≠ .waitSpace)) → done { t with
        journal.occupied := s.journal.occupied - s.journal.held
        journal.held := 0
        link.slot := .ready tag .ok [] lost }) ∧
    (∀ e : Word, r = .brk e → s.epochs.latestBroken = e →
      ((s.transit.access.all fun a => decide (a.stage ≠ .waitHeader)) →
        done { t with epochs.breakRecording := false }) ∧
      (∀ a : Access, s.transit.access = some a → a.stage = .waitHeader → done { t with
        epochs.breakRecording := false
        transit.access := some { a with stage := .forward } })) ∧
    (r = .start → s.epochs.walker.state = .waitStart → done { t with epochs.walker :=
      { s.epochs.walker with
        state := .read
        cursor := if s.journal.tail = 0 then s.slotCount - 1 else s.journal.tail - 1
        sequence := s.journal.sequence - 1
        expected := s.epochs.table.length - 1
        buffer := [], bursts := 0, abort := false } }) ∧
    (∀ (h : Header) (sc : Scan), r = .recover → s.epochs.engine = .recovering → s.epochs.recovery = .header h sc →
      done (post (.recoverDone .restored sc.entries.length sc.records)
        { t with epochs.engine := .journaling, epochs.recovery := .idle })) ∧
    (r = .settle → s.epochs.engine = .settling →
      (s.maps.m0.state = .active ∨ s.maps.m1.state = .active →
        done (post (.rollbackDone s.epochs.walker.target s.currentEpoch)
          { t with epochs.settleDone := true, epochs.engine := .journaling })) ∧
      (s.maps.m0.state ≠ .active → s.maps.m1.state ≠ .active → done { t with epochs.settleDone := true })) ∧
    (r = .startAborted → done t) ∧
    (r = .start → s.epochs.walker.state ≠ .waitStart → done t) ∧
    (∀ (e : Word) (c : Cause) (slot merged : Nat), r = .checkpoint e c slot merged → s.epochs.ckptInFlight = false →
      done t) ∧
    (∀ e : Word, r = .brk e → s.epochs.latestBroken ≠ e → done t)) ∧
  (∀ (s : State) (addr : Nat) (data : List Byte) (j : HeaderJob), writesJ s .header addr data →
    s.journal.header.inFlight = some j → j.bursts = 7 → j.kind = .requested →
    let t : State := { landed addr (data.take 16) s with journal.header.inFlight := none }
    exec .headerWriteDone s =
      .next (arbitrate (nextCopyBegun (j.requests.foldl (fun x r => requestDone r x) t))))

/-- FORMAT's own copies: the end of copy A begins copy B with generation 2; the end of copy B makes M0 ACTIVE, enters
JOURNALING and posts FORMAT_DONE. A write left from before FORMAT ends without effect on the engine. -/
def Obligations.FormatCopiesComplete : Prop :=
  ∀ (s : State) (addr : Nat) (data : List Byte) (j : HeaderJob), writesJ s .header addr data →
    s.journal.header.inFlight = some j → j.bursts = 7 →
    let t : State := { landed addr (data.take 16) s with journal.header.inFlight := none }
    (j.kind = .formatA →
      let u : State := { t with epochs.format := .copyB }
      exec .headerWriteDone s = .next (arbitrate { u with
        journal.header.generation := 2
        journal.header.last := some .b
        journal.header.inFlight := some ⟨.b, 2, (headerOf u 2).encode, 0, [], .formatB⟩ })) ∧
    (j.kind = .formatB → exec .headerWriteDone s = .next (arbitrate (post (.formatDone false)
      { t with maps.m0.state := .active, epochs.engine := .journaling, epochs.format := .idle }))) ∧
    (j.kind = .abandoned →
      (s.epochs.engine ≠ .formatting ∨ s.epochs.format ≠ .copyA → exec .headerWriteDone s = .next (arbitrate t)) ∧
      (s.epochs.engine = .formatting → s.epochs.format = .copyA → exec .headerWriteDone s = .next (arbitrate { t with
        journal.header.generation := 1
        journal.header.last := some .a
        journal.header.inFlight := some ⟨.a, 1, (headerOf t 1).encode, 0, [], .formatA⟩ })))

/-- JERR on a header burst: the acknowledged beats stay, PORT_ERROR names the burst, and by what the write belonged to: the
engine enters FAULTED as MarkerError says, and then the requests the write carried fail, a RELEASE among them answered
J_ERROR with its slots still held; in FAULTED the requests fail and nothing more happens; RECOVER ends with J_ERROR; FORMAT
ends with J_ERROR; a write left from before FORMAT changes no engine state, and FORMAT goes on, to copy A when it has
waited for that write.

RECOVER alone makes a request in RECOVERING, and the walker is STOPPED outside ROLLING_BACK (EngineLaw): the premises say
so. -/
def Obligations.HeaderError : Prop :=
  ∀ (s : State) (addr : Nat) (data : List Byte) (j : HeaderJob) (beats : Fin 4), writesJ s .header addr data →
    s.journal.header.inFlight = some j →
    let t : State := { post (.portError .headerWrite addr) (landed addr (data.take (4 * beats.val)) s) with
      journal.header.inFlight := none }
    let next := s.journal.header.next
    let ends (x : State) : Prop := exec (.headerWriteJerr beats) s = .next (arbitrate x)
    (j.kind = .requested → s.epochs.engine ∈ [.journaling, .rollingBack, .settling, .held] →
      let x := faulted t
      ends { x with link.slot := releaseFailed j.requests x.link.slot }) ∧
    (j.kind = .requested → s.epochs.engine = .faulted → s.epochs.walker.state = .stopped → ends { t with
      journal.header.dirty := false
      journal.header.next := []
      link.slot := releaseFailed (next ++ j.requests) s.link.slot }) ∧
    (∀ (h : Header) (sc : Scan), j.kind = .requested → j.requests = [.recover] → s.epochs.engine = .recovering →
      s.epochs.recovery = .header h sc → s.epochs.walker.state = .stopped → HeaderRequest.recover ∉ next →
      ends (recoverFail .jError { t with
        journal.header.dirty := false
        journal.header.next := []
        link.slot := releaseFailed next s.link.slot })) ∧
    (j.kind = .formatA ∨ j.kind = .formatB →
      ends (post (.formatDone true) { t with epochs.engine := .faulted, epochs.format := .idle })) ∧
    (j.kind = .abandoned →
      (s.epochs.engine ≠ .formatting ∨ s.epochs.format ≠ .copyA → ends t) ∧
      (s.epochs.engine = .formatting → s.epochs.format = .copyA → ends { t with
        journal.header.generation := 1
        journal.header.last := some .a
        journal.header.inFlight := some ⟨.a, 1, (headerOf t 1).encode, 0, [], .formatA⟩ }))

/-! ## Maps, sweeps and the cut (R52 to R57, R89 to R98) -/

/-- A sweep completes: its map is CLEAN with the range it was started over cleared, the queued sweep starts, and the
engine state decides the rest: nothing in OFFLINE, ROLLING_BACK, HELD and FAULTED and (without a pending mark)
JOURNALING; in SETTLING a map is made ACTIVE when none is. A pending mark's re-evaluation stands in CutConditions.

The sweeps that FORMAT and RECOVER wait for: a sweep started under another window size is requested again, and starts at
once or waits behind the queued one; the end of the first of the two does nothing more; when both maps are CLEAN, FORMAT
begins its marker stage (epoch 1 in slot 0 with sequence 1) and RECOVER its scan at the head slot. In their other stages a
sweep's end does nothing more. -/
def Obligations.SweepCompletes : Prop :=
  (∀ (s : State) (r : Sweep), live s → s.maps.running = some r →
     let swept : CaptureMap := ⟨.clean, (s.maps.get r.map).bits.filter fun i => decide (r.bits ≤ i)⟩
     let m := s.maps.put r.map swept
     let n : CaptureMaps := { m with
       running := s.maps.queued.map fun q => ⟨q, s.maps.bitsInUse⟩
       queued := none }
     let other := match r.map with | .m0 => s.maps.m1.state | .m1 => s.maps.m0.state
     (s.epochs.engine ∈ [.offline, .rollingBack, .held, .faulted] ∨
         (s.epochs.engine = .journaling ∧ s.epochs.pendingMark = 0) →
       exec .sweepComplete s = .next (arbitrate { s with maps := n })) ∧
     (s.epochs.engine = .settling → other ≠ .active →
       (s.epochs.settleDone = false →
         exec .sweepComplete s = .next (arbitrate { s with maps := n.put r.map { swept with state := .active } })) ∧
       (s.epochs.settleDone = true →
         exec .sweepComplete s = .next (arbitrate (post (.rollbackDone s.epochs.walker.target s.currentEpoch)
           { s with
             maps := n.put r.map { swept with state := .active }
             epochs.engine := .journaling })))) ∧
     (s.epochs.engine = .settling → other = .active →
       (s.epochs.settleDone = false → exec .sweepComplete s = .next (arbitrate { s with maps := n })) ∧
       (s.epochs.settleDone = true →
         exec .sweepComplete s = .next (arbitrate (post (.rollbackDone s.epochs.walker.target s.currentEpoch)
           { s with maps := n, epochs.engine := .journaling }))))) ∧
  (∀ (s : State) (r : Sweep), live s → s.maps.running = some r →
     let swept : CaptureMap := ⟨.clean, (s.maps.get r.map).bits.filter fun i => decide (r.bits ≤ i)⟩
     let n : CaptureMaps := { s.maps.put r.map swept with
       running := s.maps.queued.map fun q => ⟨q, s.maps.bitsInUse⟩
       queued := none }
     let other := match r.map with | .m0 => s.maps.m1.state | .m1 => s.maps.m0.state
     let ends (x : State) : Prop := exec .sweepComplete s = .next (arbitrate x)
     let waits := s.epochs.engine = .formatting ∧ s.epochs.format = .sweep ∨
       s.epochs.engine = .recovering ∧ ∃ h : Header, s.epochs.recovery = .sweep h
     (s.epochs.engine ∈ [.formatting, .recovering] → ¬ waits → ends { s with maps := n }) ∧
     (∀ w : Window, waits → s.maps.window = some w → r.bits ≠ w.bits →
       let again := n.put r.map { swept with state := .sweeping }
       (s.maps.queued = none → ends { s with maps := { again with running := some ⟨r.map, w.bits⟩ } }) ∧
       ∀ q : MapId, s.maps.queued = some q → q ≠ r.map →
         ends { s with maps := { again with running := some ⟨q, w.bits⟩, queued := some r.map } }) ∧
     (∀ w : Window, waits → s.maps.window = some w → r.bits = w.bits → other ≠ .clean → ends { s with maps := n }) ∧
     (∀ g : Geometry, s.epochs.engine = .formatting → s.epochs.format = .sweep → s.maps.window = some g.window →
       r.bits = g.window.bits → other = .clean → s.journal.geometry = some g → ends { s with
         maps := n
         epochs.table := [⟨1, 0, 1, 0, .format⟩]
         epochs.lastUsed := 1
         epochs.format := .marker
         journal.head := 0
         journal.tail := 1
         journal.occupied := 1
         journal.held := 0
         journal.sequence := 2
         journal.marker := .inFlight ⟨1, 0, .format, .format, 0, markerRecord g.identity 1 1 .format 0 0, 0⟩ }) ∧
     (∀ (h : Header) (w : Window), s.epochs.engine = .recovering → s.epochs.recovery = .sweep h →
       s.maps.window = some w → r.bits = w.bits → other = .clean →
       ends { s with maps := n, epochs.recovery := .scan h ⟨[], 0, h.headSlot, 0, 0, false⟩ [] }))

/-- CUT_TAKEN in JOURNALING: the new epoch, its marker slot and sequence, the table entry with the cause, the pending mark
cleared, the maps swapped with the old map's sweep started, the MARKER write in flight with the marks merged (they stand
in its job and not in the table entry, the model's choice, log 27); the flag stays set.
In any other state, and where the flag is clear because the engine has been FAULTED since the claim, the claim is dropped
and the flag is clear. A commit or a rollback start that waits beside it is taken next, on the state the cut left (R18,
R40), and two that wait beside it are left to their commands. While an access is in progress, or with no cut waiting, the
command has no effect but the arbiters' (log 4).

The order of two claims at one boundary is the queue's (log 7). That a claim left from FAULTED is known by the clear flag
is the model's form of it (log 14). -/
def Obligations.CutTaken : Prop :=
  (∀ (s : State) (b : CutBy), s.porn = false → s.transit.access = none → s.transit.claims.cut = some b →
    let then' (x : State) : Host.Outcome State Fault Refusal := match s.transit.claims.commit, s.transit.claims.start with
      | false, none => .next (arbitrate x)
      | true, none => exec .commitTaken x
      | false, some _ => exec .rollbackStart x
      | true, some _ => .next (arbitrate x)
    (∀ (g : Geometry) (w : Window) (i : MapId), s.epochs.engine = .journaling → s.epochs.ckptInFlight = true →
      s.journal.geometry = some g → s.maps.window = some w → (s.maps.get i).state = .active →
      (let other := match i with | .m0 => s.maps.m1.state | .m1 => s.maps.m0.state
       other = .clean) → s.maps.running = none → s.maps.queued = none →
      let n := s.epochs.lastUsed + 1
      let cause : Cause := match b with
        | .checkpoint => if s.epochs.pendingMark = 0 then .manual else .manualAndMark
        | .mark => .mark
      let swapped : CaptureMaps := match i with
        | .m0 => ⟨⟨.sweeping, s.maps.m0.bits⟩, ⟨.active, s.maps.m1.bits⟩, some w, some ⟨.m0, w.bits⟩, none⟩
        | .m1 => ⟨⟨.active, s.maps.m0.bits⟩, ⟨.sweeping, s.maps.m1.bits⟩, some w, some ⟨.m1, w.bits⟩, none⟩
      exec .cutTaken s = then'
        { lowWater s.free (slotTaken s) with
          transit.claims.cut := none
          epochs.lastUsed := n
          epochs.table := s.epochs.table ++ [⟨n, s.journal.tail, s.journal.sequence, 0, cause⟩]
          epochs.pendingMark := 0
          maps := swapped
          journal.marker := .inFlight ⟨n, s.journal.tail, .cut, cause, s.epochs.pendingMark,
            markerRecord g.identity s.journal.sequence n cause s.epochs.pendingMark 0, 0⟩ }) ∧
    (s.epochs.engine ≠ .journaling ∨ s.epochs.ckptInFlight = false → exec .cutTaken s = then'
      { s with transit.claims.cut := none, epochs.ckptInFlight := false })) ∧
  (∀ s : State, s.porn = false → s.transit.access.isSome ∨ s.transit.claims.cut = none →
    exec .cutTaken s = .next (arbitrate s))

/-- The cut conditions in order, each failing with its reason; free counts held slots as occupied.

A pending mark is re-evaluated when a sweep, a checkpoint or a RELEASE ends: with the conditions holding the cut is
claimed, and taken at once while no access is in progress; with one failing nothing happens and nothing is posted. A
write stalled in WAIT_SPACE tests free again at the RELEASE's end, after the re-evaluation. -/
def Obligations.CutConditions : Prop :=
  (∀ s : State,
     let c1 := s.epochs.engine = .journaling ∧ s.epochs.startClaimed = false
     let c2 := s.epochs.ckptInFlight = false
     let c3 := s.maps.m0.state = .clean ∨ s.maps.m1.state = .clean
     let c4 := ∃ g : Geometry, s.journal.geometry = some g ∧ 1 ≤ g.slotCount - s.journal.occupied
     let c5 := s.epochs.table.length < 16
     let c6 := s.epochs.lastUsed.toNat < 4294967295
     (¬ c1 → cutFailure s = some .wrongState) ∧
     (c1 → ¬ c2 → cutFailure s = some .ckptInFlight) ∧
     (c1 → c2 → ¬ c3 → cutFailure s = some .sweepBusy) ∧
     (c1 → c2 → c3 → ¬ c4 → cutFailure s = some .journalFull) ∧
     (c1 → c2 → c3 → c4 → ¬ c5 → cutFailure s = some .epochsFull) ∧
     (c1 → c2 → c3 → c4 → c5 → ¬ c6 → cutFailure s = some .epochLimit) ∧
     (c1 → c2 → c3 → c4 → c5 → c6 → cutFailure s = none)) ∧
  (let claimed' (t : State) : State := { t with transit.claims.cut := some .mark, epochs.ckptInFlight := true }
   let reevaluates (c : Instr) (s t : State) : Prop :=
     (cutFailure t ≠ none → exec c s = .next (arbitrate t)) ∧
     (cutFailure t = none → s.transit.access.isSome → exec c s = .next (arbitrate (claimed' t))) ∧
     (cutFailure t = none → s.transit.access = none → exec c s = exec .cutTaken (claimed' t))
   (∀ (s : State) (r : Sweep), live s → s.maps.running = some r → s.epochs.engine = .journaling →
     0 < s.epochs.pendingMark → reevaluates .sweepComplete s { s with maps := endSweep s.maps }) ∧
   (∀ (s : State) (addr : Nat) (data : List Byte) (j : HeaderJob), writesJ s .header addr data →
     s.journal.header.inFlight = some j → j.bursts = 7 → j.kind = .requested → s.journal.header.dirty = false →
     s.epochs.engine = .journaling → 0 < s.epochs.pendingMark →
     let t : State := { landed addr (data.take 16) s with journal.header.inFlight := none }
     (∀ (e : Word) (c : Cause) (slot merged : Nat), j.requests = [.checkpoint e c slot merged] →
       s.epochs.ckptInFlight = true → reevaluates .headerWriteDone s
         (post (.ckptDone e c slot merged) { t with epochs.ckptInFlight := false })) ∧
     (∀ (tag : Byte) (lost : Bool), j.requests = [.release] → s.link.slot = .executing 0x0B tag lost →
       let u : State := { t with
         journal.occupied := s.journal.occupied - s.journal.held
         journal.held := 0
         link.slot := .ready tag .ok [] lost }
       ((s.transit.access.all fun a => decide (a.stage ≠ .waitSpace)) → reevaluates .headerWriteDone s u) ∧
       ∀ a : Access, s.transit.access = some a → a.stage = .waitSpace →
         let v := if cutFailure u = none then claimed' u else u
         (u.free < 2 → exec .headerWriteDone s = .next (arbitrate v)) ∧
         (2 ≤ u.free → exec .headerWriteDone s = .next (arbitrate { lowWater v.free (slotTaken v) with
           transit.timer := none
           transit.access := some
             { a with stage := .readOld, slot := some ⟨s.journal.tail, s.journal.sequence⟩, oldBursts := 0 } })))))

/-! ## Rollback (chapter 7) -/

/-- ROLLBACK_START in JOURNALING or HELD: the pending target is k, the engine is ROLLING_BACK, the walker is WAIT_START
with target k, the indication is clear, and a header write is requested. In any other state the claim is dropped. A
commit or a cut that waits beside it is taken next, on the state the start left (R40), and two that wait beside it are
left to their commands. While an access is in progress, or with no start waiting, the command has no effect but the
arbiters' (log 4).

The order of two claims at one boundary is the queue's (log 7). -/
def Obligations.RollbackStart : Prop :=
  (∀ (s : State) (k : Word), s.porn = false → s.transit.access = none → s.transit.claims.start = some k →
    let started : State := requestHeader .start { s with
      transit.claims.start := none
      epochs.startClaimed := false
      epochs.pendingTarget := k
      epochs.engine := .rollingBack
      epochs.walker.state := .waitStart
      epochs.walker.target := k }
    let dropped : State := { s with transit.claims.start := none, epochs.startClaimed := false }
    let then' (x : State) : Host.Outcome State Fault Refusal := match s.transit.claims.commit, s.transit.claims.cut with
      | false, none => .next (arbitrate x)
      | true, none => exec .commitTaken x
      | false, some _ => exec .cutTaken x
      | true, some _ => .next (arbitrate x)
    (s.epochs.engine = .journaling ∨ s.epochs.engine = .held → exec .rollbackStart s = then' started) ∧
    (s.epochs.engine ≠ .journaling → s.epochs.engine ≠ .held → exec .rollbackStart s = then' dropped)) ∧
  (∀ s : State, s.porn = false → s.transit.access.isSome ∨ s.transit.claims.start = none →
    exec .rollbackStart s = .next (arbitrate s))

/-- A halt of the walk as the state shows it: HELD, the walker stopped with its target kept, ROLLBACK_HALTED posted, and
an ABORT held in the response slot answered OK.

ABORT: in WAIT_START the walk halts at once at the slot before tail; in READ and WRITE_BACK the abort flag is set and
the answer is held; everywhere else it is refused WRONG_STATE.

A start whose ABORT was taken leaves its request, in flight or waiting, without a waiter (log 23): it completes and nothing
further happens, as HeaderWriteComplete says. -/
def Obligations.WalkHalts : Prop :=
  (∀ (s : State) (c : HaltCause) (slot : Nat),
     let t := post (.rollbackHalted c slot) { s with
       epochs.engine := .held
       epochs.walker := { Walker.powerOn with target := s.epochs.walker.target } }
     (∀ (tag : Byte) (lost : Bool), s.link.slot = .executing 0x0D tag lost →
       halt c slot s = { t with link.slot := .ready tag .ok [] lost }) ∧
     ((∀ (tag : Byte) (lost : Bool), s.link.slot ≠ .executing 0x0D tag lost) → halt c slot s = t)) ∧
  (∀ (f : Frame) (s : State), frameExecutes 0x0D f s →
     let w := s.epochs.walker
     (s.epochs.engine = .rollingBack → w.state = .waitStart →
       exec (.abort f) s = .next (arbitrate (halt .aborted
         (if s.journal.tail = 0 then s.slotCount - 1 else s.journal.tail - 1)
         { holding 0x0D f s with journal.header := forgetStarts s.journal.header }))) ∧
     (s.epochs.engine = .rollingBack → w.state = .read ∨ w.state = .writeBack →
       exec (.abort f) s = .next (arbitrate (holding 0x0D f { s with epochs.walker.abort := true }))) ∧
     (s.epochs.engine ≠ .rollingBack ∨ w.state = .reopen ∨ w.state = .stopped →
       exec (.abort f) s = .next (arbitrate (answered f .wrongState [] s)))) ∧
  (∀ h : HeaderWriter,
     let forget (r : HeaderRequest) : HeaderRequest := if r = .start then .startAborted else r
     forgetStarts h = { h with
       next := h.next.map forget
       inFlight := h.inFlight.map fun j => { j with requests := j.requests.map forget } })

/-- WALKER_SLOT_READ: the first five bursts fill the record buffer. With the sixth the tests of R124 are made against the
expected entry: an UNDO record that passes all seven goes to WRITE_BACK; a slot that fails one halts the walk with
BAD_RECORD at the cursor.

A verified MARKER: one of an epoch above the target moves the walk into the entry before it, with the sequence the
table gives; that of the target makes the arrival, unless an ABORT was taken, which halts the walk there.

One command is one burst (log 3). -/
def Obligations.WalkerReads : Prop :=
  (∀ (s : State) (addr : Nat), readsJ s .walker addr → s.epochs.walker.state = .read →
     let w := s.epochs.walker
     let bs := w.buffer ++ s.jmem.readBytes addr 16
     (bs.length < 96 → exec .walkerSlotRead s =
       .next (arbitrate { jFree s with epochs.walker := { w with buffer := bs } })) ∧
     ∀ (g : Geometry) (e : Entry), 96 ≤ bs.length → s.journal.geometry = some g →
       s.epochs.table[w.expected]? = some e →
       let r := Record.decode bs
       let passes := verdict (some g.identity) bs = .valid ∧ r.sequence = w.sequence ∧
         r.kind = (if w.cursor = e.slot then 0x02 else 0x01) ∧ r.epoch = e.epoch ∧
         (r.kind = 0x01 → g.window.base ≤ r.granule ∧ r.granule < g.window.base + 2 ^ (20 + g.window.code))
       (passes → w.cursor ≠ e.slot → exec .walkerSlotRead s = .next (arbitrate
         { jFree s with epochs.walker := { w with state := .writeBack, buffer := bs, bursts := 0 } })) ∧
       (¬ passes → exec .walkerSlotRead s = .next (arbitrate (halt .badRecord w.cursor (jFree s))))) ∧
  (∀ (s : State) (addr : Nat) (g : Geometry) (e : Entry), readsJ s .walker addr → s.epochs.walker.state = .read →
     let w := s.epochs.walker
     let bs := w.buffer ++ s.jmem.readBytes addr 16
     let r := Record.decode bs
     96 ≤ bs.length → s.journal.geometry = some g → s.epochs.table[w.expected]? = some e → w.cursor = e.slot →
     verdict (some g.identity) bs = .valid → r.sequence = w.sequence → r.kind = 0x02 → r.epoch = e.epoch →
     let back := if w.cursor = 0 then g.slotCount - 1 else w.cursor - 1
     (∀ p : Entry, e.epoch ≠ w.target → s.epochs.table[w.expected - 1]? = some p →
       (w.abort = false → exec .walkerSlotRead s = .next (arbitrate { jFree s with epochs.walker :=
         { w with
           state := .read, cursor := back, sequence := p.sequence + BitVec.ofNat 32 p.undo
           expected := w.expected - 1, buffer := [], bursts := 0 } })) ∧
       (w.abort = true → exec .walkerSlotRead s = .next (arbitrate (halt .aborted back (jFree s))))) ∧
     (e.epoch = w.target → w.abort = true →
       exec .walkerSlotRead s = .next (arbitrate (halt .aborted e.slot (jFree s)))) ∧
     (e.epoch = w.target → w.abort = false →
       let n := s.epochs.lastUsed + 1
       let cleared : State := { jFree s with
         journal.tail := e.slot
         journal.occupied := if s.journal.head ≤ e.slot then e.slot - s.journal.head
           else g.slotCount - s.journal.head + e.slot }
       exec .walkerSlotRead s = .next (arbitrate { lowWater cleared.free (slotTaken cleared) with
         epochs.lastUsed := n
         epochs.table := (s.epochs.table.filter fun x => decide (x.epoch < w.target)) ++
           [⟨n, e.slot, s.journal.sequence, 0, .reopen⟩]
         epochs.walker.state := .reopen
         journal.marker := .inFlight ⟨n, e.slot, .reopen, .reopen, 0,
           markerRecord g.identity s.journal.sequence n .reopen 0 w.target, 0⟩ })))

/-- WRITE_BACK_DONE: each burst's sixteen bytes are in the protected memory; the fourth ends the step one slot back, or
halts there when an ABORT was taken during it. WRITE_BACK_DERR and WALKER_READ_JERR halt the walk at the cursor slot;
the beats acknowledged before a DERR stay written.

The write-back bursts granted to the walker carry the old data of the verified record: burst n goes to the granule
address plus 16 n with bytes 16 n to 16 n + 15 of it.

One command is one burst (log 3). -/
def Obligations.WriteBack : Prop :=
  (∀ (s : State) (addr : Nat) (data : List Byte), live s →
     let w := s.epochs.walker
     (s.dport.burst = some (.walker addr data) → w.state = .writeBack →
       let t : State := { s with dmem := s.dmem.writeBytes addr data, dport.burst := none }
       let back := if w.cursor = 0 then s.slotCount - 1 else w.cursor - 1
       (w.bursts + 1 ≠ 4 → exec .writeBackDone s =
         .next (arbitrate { t with epochs.walker := { w with bursts := w.bursts + 1 } })) ∧
       (w.bursts + 1 = 4 → w.abort = false → exec .writeBackDone s = .next (arbitrate { t with epochs.walker :=
         { w with
           state := .read, cursor := back, sequence := w.sequence - 1, buffer := [], bursts := 0 } })) ∧
       (w.bursts + 1 = 4 → w.abort = true → exec .writeBackDone s = .next (arbitrate (halt .aborted back t))) ∧
       ∀ beats : Fin 4, exec (.writeBackDerr beats) s = .next (arbitrate (halt .dError w.cursor
         { s with dmem := s.dmem.writeBytes addr (data.take (4 * beats.val)), dport.burst := none }))) ∧
     (readsJ s .walker addr → w.state = .read →
       exec .walkerReadJerr s = .next (arbitrate (halt .jError w.cursor (jFree s))))) ∧
  (∀ s : State, s.dport.burst = none → s.epochs.walker.state = .writeBack → s.transit.access = none →
     let w := s.epochs.walker
     let r := Record.decode w.buffer
     (grantD s).dport = ⟨.walker, some (.walker (r.granule + 16 * w.bursts) ((r.old.drop (16 * w.bursts)).take 16))⟩)

/-- ROLLBACK: the seven checks in order, each refusal with its status and nothing changed; accepted, the answer carries k
and the epoch to come, the pending mark is discarded and the start is claimed. It is taken at once while no access is in
progress, it ends a stall, and otherwise it waits, beside whatever waits already. -/
def Obligations.Rollback : Prop :=
  ∀ (f : Frame) (s : State) (k : Word), frameExecutes 0x0C f s → f.params = be32 k →
    let refused (st : Status) : Prop := exec (.rollback f) s = .next (arbitrate (answered f st [] s))
    let c1 := (s.epochs.engine = .journaling ∨ s.epochs.engine = .held) ∧ s.epochs.startClaimed = false
    let c2 := s.epochs.ckptInFlight = false
    let c3 := k ≠ 0
    let c4 := ∃ e ∈ s.epochs.table, e.epoch = k
    let c5 := s.epochs.latestBroken.toNat < k.toNat
    let c6 := s.epochs.engine = .held → k.toNat ≤ s.epochs.pendingTarget.toNat
    let c7 := s.epochs.lastUsed.toNat < 4294967295
    (s.epochs.engine = .offline ∨ s.epochs.engine = .faulted → refused .wrongState) ∧
    (s.epochs.engine ≠ .offline → s.epochs.engine ≠ .faulted → ¬ c1 → refused .busy) ∧
    (c1 → ¬ c2 → refused .ckptInFlight) ∧
    (c1 → c2 → ¬ c3 → refused .badParam) ∧
    (c1 → c2 → c3 → ¬ c4 → refused .notRetained) ∧
    (c1 → c2 → c3 → c4 → ¬ c5 → refused .unrestorable) ∧
    (c1 → c2 → c3 → c4 → c5 → ¬ c6 → refused .badParam) ∧
    (c1 → c2 → c3 → c4 → c5 → c6 → ¬ c7 → refused .epochLimit) ∧
    (c1 → c2 → c3 → c4 → c5 → c6 → c7 →
      let t := answered f .accepted (be32 k ++ be32 (s.epochs.lastUsed + 1)) { s with
        epochs.pendingMark := 0
        epochs.startClaimed := true
        transit.claims.start := some k }
      (s.transit.access = none → exec (.rollback f) s = exec .rollbackStart t) ∧
      ∀ a : Access, s.transit.access = some a →
        (a.stage ≠ .waitSpace → exec (.rollback f) s = .next (arbitrate t)) ∧
        (a.stage = .waitSpace → exec (.rollback f) s = .next (arbitrate (claimTaken
          (post (.refusedAccess (4 * a.ua.toNat) a.write .rollingBack)
            (accessOver (s.transit.answers ++ [errBeat a.write]) t))))) ∧
        (a.stage = .waitSpace → s.transit.claims = Claims.none → exec (.rollback f) s = exec .rollbackStart
          (post (.refusedAccess (4 * a.ua.toNat) a.write .rollingBack)
            (accessOver (s.transit.answers ++ [errBeat a.write]) t))))

/-! ## FORMAT and RECOVER (chapter 8) -/

/-- FORMAT: the seven checks in order, each refusal with its status and nothing changed. Accepted: the engine is
FORMATTING, the table is empty, the counters, flags and the pending target are 0, the geometry and the window are
installed, the ring is empty with the sequence counter at 1, the marker write state is none, the waiting header requests are dropped, a header write in flight belongs to nobody any more, both maps are
to be swept, and an access in progress is cut as EngineChangeCutsAccess says.

Both maps go to SWEEPING under a new window: M0's sweep starts and M1 waits, unless sweeps are already there, which
go on.

That a MARKER burst still on the J-port runs on, disregarded, is the model's choice (log 15). -/
def Obligations.Format : Prop :=
  (∀ (f : Frame) (s : State) (identity : Word) (count base : Nat) (code : Byte), frameExecutes 0x08 f s →
     count < 4294967296 → base < 4294967296 →
     f.params = be32 identity ++ beBytes 4 count ++ beBytes 4 base ++ [code] →
     let refused (st : Status) (data : List Byte) : Prop :=
       exec (.format f) s = .next (arbitrate (answered f st data s))
     let w : Window := ⟨base, code.toNat⟩
     let c1 := s.epochs.engine ∈ [.offline, .journaling, .held, .faulted] ∧ s.epochs.startClaimed = false
     let c2 := s.epochs.ckptInFlight = false
     let c3 := identity ≠ 0 ∧ 64 ≤ count ∧ count ≤ 163840 ∧ code.toNat ≤ 4 ∧ base % 2 ^ (20 + code.toNat) = 0 ∧
       base < 0x4000000
     (¬ c1 → refused .busy []) ∧
     (c1 → ¬ c2 → refused .ckptInFlight []) ∧
     (c1 → c2 → ¬ c3 → refused .badParam []) ∧
     (∀ i : Nat, c1 → c2 → c3 → firstOutside s.regions.active w = some i →
       refused .badRegion [BitVec.ofNat 8 i, 0x01]) ∧
     (c1 → c2 → c3 → firstOutside s.regions.active w = none →
        let kept := s.journal.jport.burst.map fun b => if b.client = .marker then { b with live := false } else b
        exec (.format f) s = .next (arbitrate (cutAccess .formatting (answered f .accepted [] { s with
         epochs := { s.epochs with
           engine := .formatting, table := [], lastUsed := 0, latestBroken := 0, pendingTarget := 0
           breakRecording := false, pendingMark := 0, ckptInFlight := false, startClaimed := false
           format := .sweep }
         journal := { s.journal with
           geometry := some ⟨identity, count, w⟩, head := 0, tail := 0, occupied := 0, held := 0, sequence := 1
           marker := .none
           header := { s.journal.header with
             dirty := false, next := []
             inFlight := s.journal.header.inFlight.map fun j => { j with requests := [], kind := .abandoned } }
           jport.burst := kept }
         maps := installWindow w s.maps }))))) ∧
  (∀ (w : Window) (m : CaptureMaps),
     let t := installWindow w m
     t.window = some w ∧ t.m0.bits = m.m0.bits ∧ t.m1.bits = m.m1.bits ∧
     t.m0.state = .sweeping ∧ t.m1.state = .sweeping ∧
     (m.running = none → m.queued = none → t.running = some ⟨.m0, w.bits⟩ ∧ t.queued = some .m1) ∧
     (∀ r : Sweep, m.running = some r → m.queued = none →
       t.running = some r ∧ t.queued = some (match r.map with | .m0 => .m1 | .m1 => .m0)) ∧
     (∀ (r : Sweep) (q : MapId), m.running = some r → m.queued = some q → q ≠ r.map →
       t.running = some r ∧ t.queued = some q))

/-- RECOVER by engine state; taken in OFFLINE, it changes the engine state and begins to read copy A, and an access in
progress is cut as EngineChangeCutsAccess says.

What a failure outcome of RECOVER leaves: OFFLINE, an empty table, no geometry and no window, the ring, the sequence
counter and the numbers 0, the header writer at its power-on values, RECOVER_DONE with the counts accepted so far; the
maps stand but for M0, DIRTY once its load has begun. -/
def Obligations.Recover : Prop :=
  (∀ (f : Frame) (s : State), frameExecutes 0x09 f s →
     (s.epochs.engine ∈ [.formatting, .recovering, .rollingBack, .settling] →
       exec (.recover f) s = .next (arbitrate (answered f .busy [] s))) ∧
     (s.epochs.engine ∈ [.journaling, .held, .faulted] →
       exec (.recover f) s = .next (arbitrate (answered f .wrongState [] s))) ∧
     (s.epochs.engine = .offline → exec (.recover f) s = .next (arbitrate (cutAccess .recovering
       (answered f .accepted [] { s with epochs.engine := .recovering, epochs.recovery := .copies [] }))))) ∧
  (∀ (o : RecoverOutcome) (s : State),
     let base : State := { s with
       epochs := { s.epochs with
         engine := .offline, table := [], lastUsed := 0, latestBroken := 0, breakRecording := false
         pendingTarget := 0, recovery := .idle }
       journal := { s.journal with
         geometry := none, head := 0, tail := 0, occupied := 0, held := 0, sequence := 0
         header := ⟨0, none, false, [], none⟩ }
       maps.window := none }
     ((∀ (buf : List Byte), s.epochs.recovery = .copies buf →
       recoverFail o s = post (.recoverDone o 0 0) base)) ∧
     (∀ (h : Header) (sc : Scan) (buf : List Byte), s.epochs.recovery = .scan h sc buf →
       recoverFail o s = post (.recoverDone o sc.entries.length sc.records) base) ∧
     (∀ (h : Header) (sc : Scan) (ld : MapLoad) (buf : List Byte),
       s.epochs.recovery = .load h sc ld buf ∨ s.epochs.recovery = .header h sc →
       recoverFail o s = post (.recoverDone o sc.entries.length sc.records)
         { base with maps.m0.state := .dirty }))

/-- HEADER_COPIES_READ: fifteen bursts fill the buffer with copy A and then copy B; with the sixteenth a copy is chosen
as the second clause says, the header writer takes its generation and letter, and RECOVER ends with NO_JOURNAL, BAD_JOURNAL or
WINDOW_CONFLICT, or installs the geometry and the window and waits for the sweeps.

The choice between the copies.

One command is one burst (log 3). -/
def Obligations.HeaderCopiesRead : Prop :=
  (∀ (s : State) (addr : Nat) (buf : List Byte), readsJ s .recovery addr → s.epochs.recovery = .copies buf →
     let bs := buf ++ s.jmem.readBytes addr 16
     let ends (x : State) : Prop := exec .headerCopiesRead s = .next (arbitrate x)
     (bs.length < 256 → ends { jFree s with epochs.recovery := .copies bs }) ∧
     (256 ≤ bs.length →
       (chooseCopy (bs.take 128) (bs.drop 128) = none → ends (recoverFail .noJournal (jFree s))) ∧
       ∀ (c : Copy) (h : Header), chooseCopy (bs.take 128) (bs.drop 128) = some (c, h) →
         let t : State := { jFree s with
           journal.header.generation := h.generation
           journal.header.last := some c }
         let w : Window := ⟨h.windowBase, h.sizeCode⟩
         let legal := 64 ≤ h.slotCount ∧ h.slotCount ≤ 163840 ∧ h.sizeCode ≤ 4 ∧ h.windowBase % w.size = 0 ∧
           h.windowBase < 0x4000000 ∧ h.headSlot < h.slotCount
         (¬ legal → ends (recoverFail .badJournal t)) ∧
         (legal → (firstOutside s.regions.active w).isSome → ends (recoverFail .windowConflict t)) ∧
         (legal → firstOutside s.regions.active w = none → ends { t with
           journal.geometry := some ⟨h.identity, h.slotCount, w⟩
           maps := installWindow w s.maps
           epochs.recovery := .sweep h }))) ∧
  (∀ a b : List Byte,
     let x := Header.decode a
     let y := Header.decode b
     let same := x.identity = y.identity ∧ x.slotCount = y.slotCount ∧ x.windowBase = y.windowBase ∧
       x.sizeCode = y.sizeCode
     (headerValid a = false → headerValid b = false → chooseCopy a b = none) ∧
     (headerValid a = true → headerValid b = false → chooseCopy a b = some (.a, x)) ∧
     (headerValid a = false → headerValid b = true → chooseCopy a b = some (.b, y)) ∧
     (headerValid a = true → headerValid b = true →
       (same → y.generation = x.generation + 1 → chooseCopy a b = some (.b, y)) ∧
       (same → x.generation = y.generation + 1 → chooseCopy a b = some (.a, x)) ∧
       (¬ (same ∧ y.generation = x.generation + 1) → chooseCopy a b = some (.a, x))))

/-- SCAN_SLOT_READ: five bursts fill the buffer; with the sixth the record at head is accepted as an ordinary or a
reopened head, or ends RECOVER with BAD_JOURNAL; a record after it, UNDO or MARKER of any cause, extends the scan when it
passes its tests, and completes it when it fails one, as does the last slot of the ring; a seventeenth MARKER ends RECOVER
with BAD_JOURNAL. A REOPEN marker of the recorded target is noted for the settlement.

The two acceptance tests for REOPEN markers: at head, in place of the MARKER the header names; and after a gap in the
sequence chain.

One command is one burst (log 3). -/
def Obligations.ScanReads : Prop :=
  (∀ (s : State) (addr : Nat) (h : Header) (sc : Scan) (buf : List Byte), readsJ s .recovery addr →
     s.epochs.recovery = .scan h sc buf →
     let bs := buf ++ s.jmem.readBytes addr 16
     let r := Record.decode bs
     let ends (x : State) : Prop := exec .scanSlotRead s = .next (arbitrate x)
     (bs.length < 96 → ends { jFree s with epochs.recovery := .scan h sc bs }) ∧
     (96 ≤ bs.length →
       let next := if sc.slot + 1 < h.slotCount then sc.slot + 1 else 0
       let markerTo (c : Cause) (reopened : Bool) : Scan :=
         ⟨sc.entries ++ [⟨r.epoch, sc.slot, r.sequence, 0, c⟩], sc.records + 1, next, r.epoch, r.sequence, reopened⟩
       (sc.records = 0 → ¬ (verdict (some h.identity) bs = .valid ∧ r.kind = 0x02) →
         ends (recoverFail .badJournal (jFree s))) ∧
       (∀ c : Cause, sc.records = 0 → sc.entries = [] → sc.reopened = false → h.slotCount ≠ 1 →
         verdict (some h.identity) bs = .valid → r.kind = 0x02 → Cause.ofCode r.cause = some c → c ≠ .reopen →
         (r.epoch = h.headEpoch → r.sequence = h.headSequence →
           ends { jFree s with epochs.recovery := .scan h (markerTo c false) [] }) ∧
         (r.epoch ≠ h.headEpoch ∨ r.sequence ≠ h.headSequence → ends (recoverFail .badJournal (jFree s)))) ∧
       (sc.records = 0 → sc.entries = [] → sc.reopened = false → h.slotCount ≠ 1 →
         verdict (some h.identity) bs = .valid → r.kind = 0x02 → Cause.ofCode r.cause = some .reopen →
         let on := markerTo .reopen (decide (h.pendingTarget ≠ 0 ∧ r.reopenedFrom = h.pendingTarget))
         (headAccepted h.identity h bs = true → ends { jFree s with epochs.recovery := .scan h on [] }) ∧
         (headAccepted h.identity h bs = false → ends (recoverFail .badJournal (jFree s)))) ∧
       (∀ l : List Entry, ∀ e : Entry, sc.records ≠ 0 → sc.entries = l ++ [e] → sc.entries.length ≤ 16 →
         verdict (some h.identity) bs = .valid → r.kind = 0x01 →
         let extended : Scan :=
           ⟨l ++ [{ e with undo := e.undo + 1 }], sc.records + 1, next, r.epoch, r.sequence, sc.reopened⟩
         (r.sequence = sc.sequence + 1 → r.epoch = sc.epoch → h.windowBase ≤ r.granule →
           r.granule < h.windowBase + 2 ^ (20 + h.sizeCode) → sc.records + 1 ≠ h.slotCount →
           ends { jFree s with epochs.recovery := .scan h extended [] }) ∧
         (r.sequence = sc.sequence + 1 → r.epoch = sc.epoch → h.windowBase ≤ r.granule →
           r.granule < h.windowBase + 2 ^ (20 + h.sizeCode) → sc.records + 1 = h.slotCount →
           ends (rebuild h extended { jFree s with epochs.recovery := .scan h extended [] })) ∧
         (r.sequence ≠ sc.sequence + 1 ∨ r.epoch ≠ sc.epoch ∨ r.granule < h.windowBase ∨
             h.windowBase + 2 ^ (20 + h.sizeCode) ≤ r.granule → ends (rebuild h sc (jFree s)))) ∧
       (∀ c : Cause, sc.records ≠ 0 → verdict (some h.identity) bs = .valid → r.kind = 0x02 →
         Cause.ofCode r.cause = some c →
         let d := (r.sequence - sc.sequence).toNat
         let passes := sc.epoch.toNat < r.epoch.toNat ∧ c ≠ .format ∧ (c ≠ .reopen → d = 1) ∧
           (c = .reopen → 2 ≤ d ∧ d ≤ 2147483647 ∧ sc.epoch.toNat < r.reopenedFrom.toNat ∧
             r.reopenedFrom.toNat < r.epoch.toNat)
         let settles := decide (c = .reopen ∧ h.pendingTarget ≠ 0 ∧ r.reopenedFrom = h.pendingTarget)
         let on := markerTo c (sc.reopened || settles)
         let t : State := { jFree s with epochs.recovery := .scan h on [] }
         (¬ passes → ends (rebuild h sc (jFree s))) ∧
         (passes → sc.entries.length < 16 → sc.records + 1 ≠ h.slotCount → ends t) ∧
         (passes → sc.entries.length < 16 → sc.records + 1 = h.slotCount → ends (rebuild h on t)) ∧
         (passes → sc.entries.length = 16 → ends (recoverFail .badJournal t))) ∧
       (sc.records ≠ 0 → verdict (some h.identity) bs ≠ .valid → ends (rebuild h sc (jFree s))))) ∧
  (∀ (identity : Word) (bs : List Byte), verdict (some identity) bs = .valid →
     let r := Record.decode bs
     r.kind = 0x02 → Cause.ofCode r.cause = some .reopen →
     (∀ h : Header, r.epoch ≠ h.headEpoch → (headAccepted identity h bs = true ↔
       h.pendingTarget ≠ 0 ∧ h.pendingTarget = h.headEpoch ∧ r.reopenedFrom = h.pendingTarget ∧
       h.pendingTarget.toNat < r.epoch.toNat ∧ 1 ≤ (r.sequence - h.headSequence).toNat ∧
       (r.sequence - h.headSequence).toNat ≤ 2147483647)) ∧
     (∀ h : Header, r.epoch = h.headEpoch → (headAccepted identity h bs = true ↔ r.sequence = h.headSequence)) ∧
     ∀ (w : Window) (sc : Scan), nextAccepted identity w sc bs = true ↔
       sc.epoch.toNat < r.epoch.toNat ∧ 2 ≤ (r.sequence - sc.sequence).toNat ∧
       (r.sequence - sc.sequence).toNat ≤ 2147483647 ∧ sc.epoch.toNat < r.reopenedFrom.toNat ∧
       r.reopenedFrom.toNat < r.epoch.toNat)

/-- The rebuild after a complete scan: the ring from the header and the counts, the sequence counter one more than the
last sequence accepted, the table as scanned, the numbers from the copy, flags clear, M0 ACTIVE; the map load follows
when the last epoch has UNDO records, and otherwise the pending target is settled as the second clause says.

The settlement of the pending target p of the chosen copy.

MAP_LOAD_READ: five bursts fill the buffer; with the sixth an UNDO record that passes its checks has its granule's
bit set, and the next slot is read or, after the last, the pending target is settled; a record of another kind that
passes sets no bit; a record of any kind that fails its checks ends RECOVER with BAD_JOURNAL. JERR on any recovery read
ends RECOVER with J_ERROR.

One command is one burst (log 3). That the map load repeats the form and window tests of the scan is the model's reading (log 17). -/
def Obligations.JournalRebuilt : Prop :=
  (∀ (h : Header) (sc : Scan) (l : List Entry) (e : Entry) (s : State), sc.entries = l ++ [e] →
     let t : State := { s with
       journal := { s.journal with
         head := h.headSlot, tail := sc.slot, occupied := sc.records, held := 0, sequence := sc.sequence + 1
         marker := .none }
       epochs := { s.epochs with
         table := sc.entries
         lastUsed := if e.epoch.toNat < h.latestBroken.toNat then h.latestBroken else e.epoch
         latestBroken := h.latestBroken, breakRecording := false, ckptInFlight := false, pendingMark := 0 }
       maps.m0.state := .active }
     (e.undo = 0 → rebuild h sc s = settleTarget h sc t) ∧
     (e.undo ≠ 0 →
       let first : MapLoad := ⟨if e.slot + 1 < s.slotCount then e.slot + 1 else 0, e.undo, e.sequence + 1⟩
       rebuild h sc s = { t with epochs.recovery := .load h sc first [] })) ∧
  (∀ (h : Header) (sc : Scan) (s : State),
     let done (o : RecoverOutcome) (x : State) : State := post (.recoverDone o sc.entries.length sc.records) x
     (h.pendingTarget = 0 → settleTarget h sc s =
       done .restored { s with epochs.engine := .journaling, epochs.recovery := .idle }) ∧
     (h.pendingTarget ≠ 0 → sc.reopened = true → settleTarget h sc s = requestHeader .recover
       { s with epochs.recovery := .header h sc, epochs.pendingTarget := 0 }) ∧
     (h.pendingTarget ≠ 0 → sc.reopened = false → settleTarget h sc s =
       done .restoredHeld
         { s with epochs.engine := .held, epochs.recovery := .idle, epochs.pendingTarget := h.pendingTarget })) ∧
  (∀ (s : State) (addr : Nat), readsJ s .recovery addr →
     (∀ (h : Header) (sc : Scan) (ld : MapLoad) (buf : List Byte), s.epochs.recovery = .load h sc ld buf →
       let bs := buf ++ s.jmem.readBytes addr 16
       let r := Record.decode bs
       let ends (x : State) : Prop := exec .mapLoadRead s = .next (arbitrate x)
       let passes := verdict (some h.identity) bs = .valid ∧ r.sequence = ld.sequence ∧
         (r.kind = 0x01 → h.windowBase ≤ r.granule ∧ r.granule < h.windowBase + 2 ^ (20 + h.sizeCode))
       let t : State := { jFree s with maps := if r.kind = 0x01 then setBit s.maps r.granule else s.maps }
       (bs.length < 96 → ends { jFree s with epochs.recovery := .load h sc ld bs }) ∧
       (96 ≤ bs.length →
         (passes → 2 ≤ ld.left →
           let on : MapLoad := ⟨if ld.slot + 1 < h.slotCount then ld.slot + 1 else 0, ld.left - 1, ld.sequence + 1⟩
           ends { t with epochs.recovery := .load h sc on [] }) ∧
         (passes → ld.left = 1 → ends (settleTarget h sc t)) ∧
         (¬ passes → ends (recoverFail .badJournal (jFree s))))) ∧
     (s.epochs.engine = .recovering →
       exec .recoveryReadJerr s = .next (arbitrate (recoverFail .jError (jFree s)))))

/-! ## Commands of the link, notices and the link itself (chapters 4, 5, 9, 10) -/

/-- CHECKPOINT: refused with the first failing cut condition and nothing changed; otherwise answered ACCEPTED with the
epoch to be opened, the flag set and the cut claimed: taken at once while no access is in progress, waiting otherwise.

RELEASE: the six checks in order, each refusal with its status and nothing changed; taken, the entries up to e leave
the table, head goes to the marker slot of the oldest that remains, the slots between are held, occupied stands, a
header write is requested and the response slot is held. -/
def Obligations.CheckpointAndRelease : Prop :=
  (∀ (f : Frame) (s : State), frameExecutes 0x0A f s →
     (∀ reason : Status, cutFailure s = some reason →
       exec (.checkpoint f) s = .next (arbitrate (answered f reason [] s))) ∧
     (cutFailure s = none →
       let t := answered f .accepted (be32 (s.epochs.lastUsed + 1))
         { s with epochs.ckptInFlight := true, transit.claims.cut := some .checkpoint }
       (s.transit.access.isSome → exec (.checkpoint f) s = .next (arbitrate t)) ∧
       (s.transit.access = none → exec (.checkpoint f) s = exec .cutTaken t))) ∧
  (∀ (f : Frame) (s : State) (e : Word), frameExecutes 0x0B f s → f.params = be32 e →
     let refused (st : Status) : Prop := exec (.release f) s = .next (arbitrate (answered f st [] s))
     let c1 := (s.epochs.engine = .journaling ∨ s.epochs.engine = .held) ∧ s.epochs.startClaimed = false
     let c2 := s.epochs.ckptInFlight = false
     let c3 := e ≠ 0
     let c4 := ∃ x ∈ s.epochs.table, x.epoch = e
     let c5 := e.toNat < s.currentEpoch.toNat
     let c6 := s.epochs.engine = .held → e.toNat < s.epochs.pendingTarget.toNat
     (¬ c1 → refused .wrongState) ∧
     (c1 → ¬ c2 → refused .ckptInFlight) ∧
     (c1 → c2 → ¬ c3 → refused .badParam) ∧
     (c1 → c2 → c3 → ¬ c4 → refused .notRetained) ∧
     (c1 → c2 → c3 → c4 → ¬ c5 → refused .badParam) ∧
     (c1 → c2 → c3 → c4 → c5 → ¬ c6 → refused .badParam) ∧
     (c1 → c2 → c3 → c4 → c5 → c6 → ∀ (first : Entry) (rest : List Entry),
       (s.epochs.table.filter fun x => decide (e < x.epoch)) = first :: rest →
       let moved := if s.journal.head ≤ first.slot then first.slot - s.journal.head
         else s.slotCount - s.journal.head + first.slot
       exec (.release f) s = .next (arbitrate (requestHeader .release (holding 0x0B f { s with
         epochs.table := first :: rest
         journal.head := first.slot
         journal.held := s.journal.held + moved })))))

/-- IDENTIFY in every engine state: the twelve bytes of the device. GET_STATUS: the report of the state at that step
that the second clause lays out. Neither changes anything but the link.

The GET_STATUS report: 99 bytes, most significant byte first, each value at its offset.

READ_EPOCHS: BUSY in FORMATTING and RECOVERING; in every other engine state the number of entries and, oldest first,
epoch, marker slot, undo count and cause of each.

The code tables of the reports, and what a number of n bytes is on the link. -/
def Obligations.ReportsOfState : Prop :=
  (∀ (f : Frame) (s : State),
     (frameExecutes 0x01 f s → exec (.identify f) s = .next (answered f .ok
       [0x4D, 0x54, 0x22, 0x40, 0x01, 0x0C, 0x10, 0x00, 0x02, 0x80, 0x00, 0x0C] s)) ∧
     (frameExecutes 0x02 f s → exec (.getStatus f) s = .next (answered f .ok (statusData s) s))) ∧
  (∀ s : State,
     let d := statusData s
     d.length = 99 ∧
     byteAt d 0 = s.epochs.engine.code ∧ byteAt d 1 = Bool.code s.epochs.startClaimed ∧
     byteAt d 2 = s.epochs.walker.state.code ∧ byteAt d 3 = Bool.code s.epochs.breakRecording ∧
     byteAt d 4 = Bool.code s.epochs.ckptInFlight ∧ byteAt d 5 = BitVec.ofNat 8 s.epochs.pendingMark ∧
     byteAt d 6 = BitVec.ofNat 8 s.epochs.table.length ∧ byteAt d 7 = s.journal.marker.code ∧
     wordBe d 8 = s.epochs.pendingTarget ∧ wordBe d 12 = s.currentEpoch ∧ wordBe d 16 = s.oldestEpoch ∧
     wordBe d 20 = s.epochs.lastUsed ∧ wordBe d 24 = s.epochs.latestBroken ∧
     wordBe d 28 = markerEpoch s.journal.marker ∧ fieldBe d 32 4 = markerSlot s.journal.marker % 4294967296 ∧
     byteAt d 36 = Bool.code s.journal.geometry.isSome ∧
     byteAt d 38 = s.maps.m0.state.code ∧ byteAt d 39 = s.maps.m1.state.code ∧
     (∀ g : Geometry, s.journal.geometry = some g → byteAt d 37 = BitVec.ofNat 8 g.window.code ∧
       wordBe d 40 = g.identity ∧ fieldBe d 44 4 = g.slotCount % 4294967296 ∧
       fieldBe d 48 4 = g.window.base % 4294967296) ∧
     (s.journal.geometry = none → field d 37 1 = [0] ∧ field d 40 12 = List.replicate 12 0) ∧
     fieldBe d 52 4 = s.journal.head % 4294967296 ∧ fieldBe d 56 4 = s.journal.tail % 4294967296 ∧
     fieldBe d 60 4 = s.journal.occupied % 4294967296 ∧ fieldBe d 64 4 = s.journal.held % 4294967296 ∧
     fieldBe d 68 4 = s.free % 4294967296 ∧ wordBe d 72 = s.journal.sequence ∧
     wordBe d 76 = s.journal.header.generation ∧ byteAt d 80 = optCode Copy.code s.journal.header.last ∧
     byteAt d 81 = Bool.code s.journal.header.dirty ∧
     byteAt d 82 = optCode Copy.code (s.journal.header.inFlight.map fun j => j.copy) ∧
     byteAt d 83 = optCode MapId.code (s.maps.running.map fun r => r.map) ∧
     byteAt d 84 = optCode MapId.code s.maps.queued ∧
     byteAt d 85 = transitCode s ∧ fieldBe d 86 2 = (s.transit.timer.getD 0) % 65536 ∧
     byteAt d 88 = s.transit.fullMode.code ∧ byteAt d 89 = BitVec.ofNat 8 s.transit.clockRate ∧
     fieldBe d 90 2 = s.transit.holdLimit % 65536 ∧ fieldBe d 92 4 = s.journal.lowWater % 4294967296 ∧
     fieldBe d 96 2 = s.notices.mask.toNat ∧ byteAt d 98 = BitVec.ofNat 8 s.notices.list.length) ∧
  (∀ (f : Frame) (s : State), frameExecutes 0x0E f s →
     (s.epochs.engine = .formatting ∨ s.epochs.engine = .recovering →
       exec (.readEpochs f) s = .next (answered f .busy [] s)) ∧
     (s.epochs.engine ≠ .formatting → s.epochs.engine ≠ .recovering →
       exec (.readEpochs f) s = .next (answered f .ok (BitVec.ofNat 8 s.epochs.table.length ::
         s.epochs.table.flatMap fun e =>
           beBytes 4 e.epoch.toNat ++ beBytes 3 e.slot ++ beBytes 3 e.undo ++ [e.cause.code]) s))) ∧
  (([.offline, .formatting, .recovering, .journaling, .rollingBack, .settling, .held, .faulted] : List Engine).map
     Engine.code = [0x00, 0x01, 0x02, 0x03, 0x04, 0x05, 0x06, 0x07] ∧
   ([.forward, .readOld, .writeRecord, .waitMarker, .waitSpace, .waitHeader, .answer] : List Stage).map Stage.code =
     [0x01, 0x02, 0x03, 0x04, 0x05, 0x06, 0x07] ∧
   (∀ s : State, transitCode s = match s.transit.access with | none => 0x00 | some a => a.stage.code) ∧
   ([.dirty, .sweeping, .clean, .active] : List MapState).map MapState.code = [0x00, 0x01, 0x02, 0x03] ∧
   ([.stopped, .waitStart, .read, .writeBack, .reopen] : List WalkerState).map WalkerState.code =
     [0x00, 0x01, 0x02, 0x03, 0x04] ∧
   (∀ (j : MarkerJob) (e : Word) (i : Nat), let marks : List MarkerWrite := [.none, .inFlight j, .failed e i]
     marks.map MarkerWrite.code = [0x00, 0x01, 0x02] ∧ marks.map markerEpoch = [0, j.epoch, e] ∧
       marks.map markerSlot = [0, j.slot, i]) ∧
   ([.format, .manual, .mark, .manualAndMark, .reopen] : List Cause).map Cause.code = [0x01, 0x02, 0x03, 0x04, 0x05] ∧
   ([none, some .a, some .b] : List (Option Copy)).map (optCode Copy.code) = [0x00, 0x01, 0x02] ∧
   ([none, some .m0, some .m1] : List (Option MapId)).map (optCode MapId.code) = [0x00, 0x01, 0x02] ∧
   ([.stall, .brk] : List FullMode).map FullMode.code = [0x00, 0x01] ∧ [false, true].map Bool.code = [0x00, 0x01] ∧
   (∀ (n x i : Nat), i < n → (beBytes n x)[i]? = some (BitVec.ofNat 8 (x / 256 ^ (n - 1 - i)))) ∧
   ∀ n x : Nat, (beBytes n x).length = n)

/-- SET_POLICY: all five values together, or BAD_PARAM and none of them. The tick in progress keeps its length. -/
def Obligations.SetPolicy : Prop :=
  ∀ (f : Frame) (s : State) (mode : Byte) (hold low mask : Nat) (rate : Byte), frameExecutes 0x07 f s →
    hold < 65536 → low < 4294967296 → mask < 65536 →
    f.params = [mode] ++ beBytes 2 hold ++ beBytes 4 low ++ [rate] ++ beBytes 2 mask →
    let legal := mode.toNat ≤ 1 ∧ 1 ≤ hold ∧ low ≤ 163840 ∧ 20 ≤ rate.toNat ∧ rate.toNat ≤ 133 ∧ mask < 4096
    (legal → exec (.setPolicy f) s = .next (answered f .ok [] { s with
      transit.fullMode := if mode = 0 then .stall else .brk
      transit.holdLimit := hold
      transit.clockRate := rate.toNat
      journal.lowWater := low
      notices.mask := BitVec.ofNat 12 mask })) ∧
    (¬ legal → exec (.setPolicy f) s = .next (answered f .badParam [] s))

/-- READ_NOTICE in every engine state: the oldest entry leaves the list and is answered; on an empty list EMPTY.

ATTN is asserted exactly while the list is non-empty, in every state.

A post: discarded when its kind is masked; merged into the entry of its kind, whose place and detail stand and whose
count rises to at most 255; or a new entry at the newest end. Nothing but the list changes.

The kind code and the detail fields of each notice, and the codes in them. -/
def Obligations.Notices : Prop :=
  (∀ (f : Frame) (s : State), frameExecutes 0x0F f s →
     (s.notices.list = [] → exec (.readNotice f) s = .next (answered f .empty [] s)) ∧
     (∀ (e : NoticeEntry) (rest : List NoticeEntry), s.notices.list = e :: rest →
       let data := [BitVec.ofNat 8 e.notice.kind, BitVec.ofNat 8 e.count] ++ e.notice.detail
       exec (.readNotice f) s = .next (answered f .ok (data ++ List.replicate (12 - data.length) 0)
         { s with notices.list := rest }) ∧
       (data ++ List.replicate (12 - data.length) 0).length = 12)) ∧
  (∀ s : State, s.attn = true ↔ s.notices.list ≠ []) ∧
  (∀ (n : Notice) (s : State),
     (s.notices.mask.getLsbD (n.kind - 1) = true → post n s = s) ∧
     (s.notices.mask.getLsbD (n.kind - 1) = false →
       ((∀ e ∈ s.notices.list, e.notice.kind ≠ n.kind) →
         post n s = { s with notices.list := s.notices.list ++ [⟨1, n⟩] }) ∧
       ∀ (l r : List NoticeEntry) (e : NoticeEntry), s.notices.list = l ++ e :: r →
         (∀ x ∈ l, x.notice.kind ≠ n.kind) → e.notice.kind = n.kind →
         post n s = { s with notices.list := l ++ ⟨min 255 (e.count + 1), e.notice⟩ :: r })) ∧
  (let posts (n : Notice) (kind : Nat) (detail : List Byte) : Prop := n.kind = kind ∧ n.detail = detail
   let n4 (x : Nat) : List Byte := beBytes 4 x
   (∀ (e : Word) (c : Cause) (slot merged : Nat), posts (.ckptDone e c slot merged) 1
     (n4 e.toNat ++ [c.code] ++ n4 slot ++ [BitVec.ofNat 8 merged])) ∧
   (∀ reason : Status, posts (.markDeferred reason) 2 [reason.code]) ∧
   (∀ (addr : Nat) (priv : Bool) (region : Nat), posts (.guardHit addr priv region) 3
     (n4 addr ++ [if priv then 0x01 else 0x00, BitVec.ofNat 8 region])) ∧
   (∀ (addr : Nat) (write : Bool) (e : Engine), posts (.refusedAccess addr write e) 4
     (n4 addr ++ [if write then 0x01 else 0x00, e.code])) ∧
   (∀ (addr : Nat) (e : Word), posts (.captureStall addr e) 5 (n4 addr ++ n4 e.toNat)) ∧
   (∀ e : Word, posts (.epochBroken e .fullBreak) 6 (n4 e.toNat ++ [0x01]) ∧
     posts (.epochBroken e .holdExpired) 6 (n4 e.toNat ++ [0x02])) ∧
   (∀ free : Nat, posts (.journalLow free) 7 (n4 free)) ∧
   (∀ addr : Nat, posts (.portError .oldDataRead addr) 8 ([0x01, 0x01] ++ n4 addr) ∧
     posts (.portError .recordWrite addr) 8 ([0x02, 0x02] ++ n4 addr) ∧
     posts (.portError .markerWrite addr) 8 ([0x02, 0x03] ++ n4 addr) ∧
     posts (.portError .headerWrite addr) 8 ([0x02, 0x04] ++ n4 addr)) ∧
   (∀ k n : Word, posts (.rollbackDone k n) 9 (n4 k.toNat ++ n4 n.toNat)) ∧
   (∀ slot : Nat, posts (.rollbackHalted .aborted slot) 10 ([0x01] ++ n4 slot) ∧
     posts (.rollbackHalted .badRecord slot) 10 ([0x02] ++ n4 slot) ∧
     posts (.rollbackHalted .dError slot) 10 ([0x03] ++ n4 slot) ∧
     posts (.rollbackHalted .jError slot) 10 ([0x04] ++ n4 slot)) ∧
   (posts (.formatDone false) 11 [0x00] ∧ posts (.formatDone true) 11 [0x01]) ∧
   (∀ (o : RecoverOutcome) (epochs records : Nat), posts (.recoverDone o epochs records) 12
     ([o.code, BitVec.ofNat 8 epochs] ++ n4 records)) ∧
   ([.restored, .restoredHeld, .noJournal, .badJournal, .windowConflict, .jError] : List RecoverOutcome).map
     RecoverOutcome.code = [0x00, 0x01, 0x02, 0x03, 0x04, 0x05])

/-- READ_SLOT: BUSY in FORMATTING and RECOVERING, BAD_PARAM for a slot outside the journal (or, with no geometry, outside
the largest one), and otherwise taken with the response slot held. Its bursts fill the buffer; the sixth answers with
slot, standing, verdict and fields; JERR answers J_ERROR. Nothing of the journal changes.

The standing of a slot: the held slots end where head begins the journal's. The codes of standings and verdicts.

One command is one burst (log 3). -/
def Obligations.ReadSlot : Prop :=
  (∀ (f : Frame) (s : State) (i : Nat), frameExecutes 0x10 f s → i < 4294967296 → f.params = beBytes 4 i →
    let limit := match s.journal.geometry with
      | some g => g.slotCount
      | none => 163840
    let busy := s.epochs.engine = .formatting ∨ s.epochs.engine = .recovering
    (busy → exec (.readSlot f) s = .next (arbitrate (answered f .busy [] s))) ∧
    (¬ busy → limit ≤ i → exec (.readSlot f) s = .next (arbitrate (answered f .badParam [] s))) ∧
    (¬ busy → i < limit → exec (.readSlot f) s =
      .next (arbitrate (holding 0x10 f { s with journal.readSlot := some ⟨i, []⟩ })))) ∧
  (∀ (s : State) (addr : Nat) (j : ReadSlotJob) (code tag : Byte) (lost : Bool), readsJ s .readSlot addr →
    s.journal.readSlot = some j → s.link.slot = .executing code tag lost →
    let bs := j.buffer ++ s.jmem.readBytes addr 16
    let done : State := { jFree s with journal.readSlot := none }
    let r := Record.decode bs
    (bs.length < 96 → exec .readSlotDone s =
      .next (arbitrate { jFree s with journal.readSlot := some { j with buffer := bs } })) ∧
    (96 ≤ bs.length →
      let data : List Byte := beBytes 4 j.slot ++
        [(standingOf s j.slot).code, (verdict (s.journal.geometry.map fun g => g.identity) bs).code,
          r.kind, r.cause] ++ beBytes 2 r.check.toNat ++ beBytes 4 r.identity.toNat ++
        beBytes 4 r.sequence.toNat ++ beBytes 4 r.epoch.toNat ++ beBytes 4 r.granule ++
        beBytes 4 r.reopenedFrom.toNat ++ [r.merged] ++ r.old
      exec .readSlotDone s = .next (arbitrate { done with link.slot := .ready tag .ok data lost })) ∧
    exec .readSlotJerr s = .next (arbitrate { done with link.slot := .ready tag .jError [] lost })) ∧
  (∀ (s : State) (i : Nat),
    (s.journal.geometry = none → standingOf s i = .noJournal) ∧
    ∀ g : Geometry, s.journal.geometry = some g → s.journal.head < g.slotCount → i < g.slotCount →
      s.journal.held < s.journal.occupied → s.journal.occupied ≤ g.slotCount →
      let fromHead := (i + g.slotCount - s.journal.head) % g.slotCount
      (fromHead < s.journal.occupied - s.journal.held → standingOf s i = .inJournal) ∧
      (g.slotCount - s.journal.held ≤ fromHead → standingOf s i = .held) ∧
      (s.journal.occupied - s.journal.held ≤ fromHead → fromHead < g.slotCount - s.journal.held →
        standingOf s i = .free)) ∧
  ([.inJournal, .held, .free, .noJournal] : List Standing).map Standing.code = [0x00, 0x01, 0x02, 0x03] ∧
  ([.valid, .checkFailed, .foreign, .malformed] : List Verdict).map Verdict.code = [0x00, 0x01, 0x02, 0x03]

/-- TRANSACTION_START and TRANSACTION_END: MSO carries the response frame exactly when the slot is READY at the start;
the end returns the framer to IDLE and leaves the slot as it is.

RESPONSE_DELIVERED: a response clocked out whole leaves the slot EMPTY, unless a frame was lost in the transaction;
then it stays READY. With no response on MSO nothing happens.

The bits on MSO while MSELn is low: the frame's bytes, most significant bit first, and ones after its end or where there
is none. While MSELn is high MSO is not driven, nor in what a PORn leaves of a transaction (the model's choice, log 32).

The bits of a whole transaction come to its commands, the response of the length that MSO carries from its start, after
the claims left over (log 29).

That a response's LOST_COMMAND flag is the one held at the transaction's start is the model's reading (log 23). That
TRANSACTION_START outside IDLE and RESPONSE_DELIVERED with nothing on MSO have no effect is the model's choice (log 4). -/
def Obligations.LinkTransactions : Prop :=
  (∀ s : State, live s →
     (s.link.framer = .idle →
       (∀ (tag : Byte) (st : Status) (data : List Byte) (lost : Bool), s.link.slot = .ready tag st data lost →
         let body := [tag, st.code, if lost then 1 else 0, BitVec.ofNat 8 data.length] ++ data
         exec .transactionStart s = .next { s with link :=
           ⟨.first, s.link.slot, [0x3C] ++ body ++ [crc8 body], 0, false⟩ }) ∧
       ((∀ (tag : Byte) (st : Status) (data : List Byte) (lost : Bool), s.link.slot ≠ .ready tag st data lost) →
         exec .transactionStart s = .next { s with link := ⟨.first, s.link.slot, [], 0, false⟩ })) ∧
     (s.link.framer ≠ .idle → exec .transactionStart s = .next s) ∧
     exec .transactionEnd s = .next { s with link := ⟨.idle, s.link.slot, [], 0, false⟩ }) ∧
  (∀ s : State, live s →
     (s.link.mso = [] → exec .responseDelivered s = .next s) ∧
     (s.link.mso ≠ [] → exec .responseDelivered s = .next { s with
       link.mso := []
       link.clocked := max s.link.clocked s.link.mso.length
       link.slot := if s.link.lostHere then s.link.slot else .empty })) ∧
  (∀ (l : Link) (n k : Nat), k < 8 →
     (l.framer = .idle → l.msoBit n = none) ∧
     (l.framer ≠ .idle → (∀ b : Byte, l.mso[n]? = some b → l.msoBit (8 * n + k) = some (b.getLsbD (7 - k))) ∧
       (l.mso.length ≤ n → l.msoBit (8 * n + k) = some true))) ∧
  (∀ (s t : State) (msi : List Bool), s.porn = false → s.link.framer = .idle → exec .transactionStart s = .next t →
     s.withTransaction msi = { s with pending := s.pending ++ transactionCommands t.link.mso.length msi })

/-- A frame that is not executed because of what it is: the wrong CRC-8 (whatever the code), an unknown code, a length that
is not the command's, or a length byte above 32. The response carries the tag and no data, and nothing else changes.

A frame judged while the slot is not EMPTY is lost whatever its code: LOST_COMMAND is set in the slot and nothing
else of the part changes but the link (and what the arbiters grant).

The status codes of responses. -/
def Obligations.FramesNotExecuted : Prop :=
  (∀ (f : Frame) (s : State),
     (∀ (code len : Byte), live s → s.link.framer = .first → s.link.clocked ≤ 4 → 32 < len.toNat →
       slotFreeAt 4 s.link → exec (.lengthOverrun code f.tag len) s =
         .next { s with link := linkAfter 4 (.ready f.tag .badLength [] false) s.link }) ∧
     (∀ code : Byte, frameJudged code f s → isCommandCode code = false →
       exec (.unknownCommandFrame code f) s = .next (answered f .badCommand [] s)) ∧
     ∀ code : Byte,
       (live s → s.link.framer = .first → s.link.clocked ≤ 5 + f.params.length →
         slotFreeAt (5 + f.params.length) s.link → f.check ≠ crc8 (frameChecked code f) →
         exec (frameCommand code f) s = .next (answered f .badCheck [] s) ∨
         exec (frameCommand code f) s = .next (arbitrate (answered f .badCheck [] s))) ∧
       (isCommandCode code = true → frameJudged code f s → paramLength code ≠ some f.params.length →
         exec (frameCommand code f) s = .next (answered f .badLength [] s) ∨
         exec (frameCommand code f) s = .next (arbitrate (answered f .badLength [] s)))) ∧
  ((∀ (f : Frame) (s : State) (code : Byte), live s → s.link.framer = .first →
     s.link.clocked ≤ 5 + f.params.length → 5 + f.params.length < s.link.mso.length ∨ s.link.mso = [] →
     let lostIn (slot : Slot) : State := { s with link := ⟨.discard, slot, s.link.mso, 5 + f.params.length, true⟩ }
     let loses (slot : Slot) : Prop :=
       exec (frameCommand code f) s = .next (lostIn slot) ∨
         exec (frameCommand code f) s = .next (arbitrate (lostIn slot))
     (∀ (c tag : Byte) (lost : Bool), s.link.slot = .executing c tag lost → loses (.executing c tag true)) ∧
     ∀ (tag : Byte) (st : Status) (data : List Byte) (lost : Bool), s.link.slot = .ready tag st data lost →
       loses (.ready tag st data true)) ∧
   ∀ (s : State) (code tag len : Byte), live s → s.link.framer = .first → s.link.clocked ≤ 4 → 32 < len.toNat →
     4 < s.link.mso.length ∨ s.link.mso = [] →
     let loses (slot : Slot) : Prop :=
       exec (.lengthOverrun code tag len) s = .next { s with link := ⟨.discard, slot, s.link.mso, 4, true⟩ }
     (∀ (c t : Byte) (lost : Bool), s.link.slot = .executing c t lost → loses (.executing c t true)) ∧
     ∀ (t : Byte) (st : Status) (data : List Byte) (lost : Bool), s.link.slot = .ready t st data lost →
       loses (.ready t st data true)) ∧
  ([.ok, .accepted, .busy, .wrongState, .badCheck, .badCommand, .badLength, .badParam, .badRegion, .journalFull,
     .epochsFull, .sweepBusy, .ckptInFlight, .notRetained, .unrestorable, .epochLimit, .empty, .jError] :
     List Status).map Status.code = [0x00, 0x01, 0x02, 0x03, 0x04, 0x05, 0x06, 0x07, 0x08, 0x09, 0x0A, 0x0B, 0x0C, 0x0D,
     0x0E, 0x0F, 0x10, 0x11]

/-- The bytes of a command frame, and of any well-formed command of the link, spell exactly that command, and so do the
bits of those bytes on MSI, most significant first; what follows in the transaction changes nothing, and a last byte of
fewer than eight bits is discarded.

A transaction that carries the frame comes to its start, the command and its end, and the delivery of a response whose
last byte goes out: before the command where the response is no longer than the frame, after it otherwise. That a
transaction's bits are these commands is the model's form of it (log 29). -/
def Obligations.FramesDecodeToTheirCommands : Prop :=
  ∀ (i : Instr) (bytes rest : List Byte) (part : List Bool), i.wellFormed = true → encodeFrame i = some bytes →
    part.length < 8 →
    let msi := (bytes ++ rest).flatMap byteBits ++ part
    decodeFrame (bytes ++ rest) = some i ∧ assembleBytes msi = bytes ++ rest ∧
    transactionCommands 0 msi = [.transactionStart, i, .transactionEnd] ∧
    ∀ r : Nat, 0 < r →
      (r ≤ bytes.length →
        transactionCommands r msi = [.transactionStart, .responseDelivered, i, .transactionEnd]) ∧
      (bytes.length < r → r ≤ (bytes ++ rest).length →
        transactionCommands r msi = [.transactionStart, i, .responseDelivered, .transactionEnd]) ∧
      ((bytes ++ rest).length < r → transactionCommands r msi = [.transactionStart, i, .transactionEnd])

/-- The D-port: a free port goes to the only claimant waiting, or to the one not granted last when both wait; a busy port
is left alone; nothing but the port's own record changes.

The J-port: a free port goes to the first waiting claimant after the last granted one in the ring record, marker,
header, walker, recovery, READ_SLOT; a busy port is left alone; nothing but the port's own record changes.

When each claimant waits. -/
def Obligations.Arbiters : Prop :=
  (∀ s : State,
     let transit := transitWaits s = true
     let walker := walkerWaits s = true
     grantD s = { s with dport := (grantD s).dport } ∧
     (s.dport.burst ≠ none → grantD s = s) ∧
     (s.dport.burst = none →
       (¬ transit → ¬ walker → grantD s = s) ∧
       (transit → ¬ walker → (grantD s).dport = ⟨.transit, some .transit⟩) ∧
       (¬ transit → walker → (grantD s).dport = ⟨.walker, some (walkerBurst s.epochs.walker)⟩) ∧
       (transit → walker → s.dport.last = .walker → (grantD s).dport = ⟨.transit, some .transit⟩) ∧
       (transit → walker → s.dport.last = .transit →
         (grantD s).dport = ⟨.walker, some (walkerBurst s.epochs.walker)⟩))) ∧
  (let ring : List JClient := [.record, .marker, .header, .walker, .recovery, .readSlot]
   ∀ s : State,
     grantJ s = { s with journal.jport := (grantJ s).journal.jport } ∧
     (s.journal.jport.burst ≠ none → grantJ s = s) ∧
     (s.journal.jport.burst = none →
       ((∀ c : JClient, jWaits s c = false) → grantJ s = s) ∧
       ∀ (p n k : Fin 6), ring[p.val]? = some s.journal.jport.last → (∀ m : Fin 6, m.val < n.val →
           ∀ c : JClient, ring[(p.val + 1 + m.val) % 6]? = some c → jWaits s c = false) →
         k.val = (p.val + 1 + n.val) % 6 →
         ∀ c : JClient, ring[k.val]? = some c → jWaits s c = true →
           (grantJ s).journal.jport = ⟨c, some (jBurst s c)⟩)) ∧
  (∀ s : State,
     let carried (p : Stage → Prop) : Prop := ∃ a : Access, s.transit.access = some a ∧ p a.stage
     (transitWaits s = true ↔ carried fun x => x = .forward ∨ x = .readOld) ∧
     (walkerWaits s = true ↔ s.epochs.walker.state = .writeBack) ∧
     (jWaits s .record = true ↔ carried fun x => x = .writeRecord) ∧
     (jWaits s .marker = true ↔ ∃ j : MarkerJob, s.journal.marker = .inFlight j) ∧
     (jWaits s .header = true ↔ ∃ j : HeaderJob, s.journal.header.inFlight = some j) ∧
     (jWaits s .walker = true ↔ s.epochs.walker.state = .read) ∧
     (jWaits s .recovery = true ↔
       (∃ buf : List Byte, s.epochs.recovery = .copies buf) ∨
       (∃ (h : Header) (sc : Scan) (buf : List Byte), s.epochs.recovery = .scan h sc buf) ∨
       ∃ (h : Header) (sc : Scan) (ld : MapLoad) (buf : List Byte), s.epochs.recovery = .load h sc ld buf) ∧
     (jWaits s .readSlot = true ↔ ∃ j : ReadSlotJob, s.journal.readSlot = some j))

/-! ## The laws every step keeps -/

/-- The laws hold in the machine right after reset. -/
def Obligations.LawsHoldAtReset : Prop :=
  MemoriesCanonical State.reset ∧ NoticesLawful State.reset ∧ EngineLaw State.reset ∧ MapLaw State.reset ∧
    EpochLaw State.reset ∧ TransitLaw State.reset

/-- Every step keeps both memories in canonical form (the model's form of a memory, log 2). -/
def Obligations.MemoriesStayCanonical : Prop :=
  ∀ s t : State, MemoriesCanonical s → step s = .next t → MemoriesCanonical t

/-- Every step keeps the notice list to one entry of a kind, with counts of 1 to 255. -/
def Obligations.NoticesStayLawful : Prop :=
  ∀ s t : State, NoticesLawful s → step s = .next t → NoticesLawful t

/-- Every step keeps the stages, flags, geometry and window that belong to an engine state in it alone, in every state in
which the access in progress keeps the laws of the upstream side (WriteAheadKept). -/
def Obligations.EngineLawKept : Prop :=
  ∀ s t : State, EngineLaw s → TransitLaw s → step s = .next t → EngineLaw t

/-- Every step keeps the laws of the capture maps: never two ACTIVE, one ACTIVE in JOURNALING, ROLLING_BACK and HELD. -/
def Obligations.MapLawKept : Prop :=
  ∀ s t : State, EngineLaw s → MapLaw s → step s = .next t → MapLaw t

/-- Until the epoch numbers run out, every step keeps the epoch table's numbers rising and the upstream side's laws: a
write to captured memory is forwarded in JOURNALING only with its granule captured in the current epoch, whose MARKER is
written, or in a broken epoch recorded as such. -/
def Obligations.WriteAheadKept : Prop :=
  ∀ s t : State, EngineLaw s → MapLaw s → EpochLaw s → TransitLaw s → s.epochs.lastUsed.toNat ≤ 4294967290 →
    step s = .next t → EpochLaw t ∧ TransitLaw t
end

