-- ==== Sys2Proof/Laws/Formats.lean ====
section
/-! SUPPORT. Numbers least significant byte first as their bytes, and the two layouts of journal memory written out byte
by byte (R183, R184). -/

namespace Sys2Proof.Machine

/-- The bytes of a 32-bit number, least significant first. -/
def wordBytes (x : Word) : List Byte :=
  [x.extractLsb' 0 8, x.extractLsb' 8 8, x.extractLsb' 16 8, x.extractLsb' 24 8]

/-- The bytes of a 16-bit number, least significant first. -/
def halfBytes (x : BitVec 16) : List Byte := [x.extractLsb' 0 8, x.extractLsb' 8 8]

theorem ofNat_div_eq_extractLsb' {n : Nat} (x : BitVec n) (k : Nat) :
    BitVec.ofNat 8 (x.toNat / 2 ^ k) = x.extractLsb' k 8 := by
  apply BitVec.eq_of_toNat_eq
  simp [BitVec.extractLsb', Nat.shiftRight_eq_div_pow]

theorem ofNat_eq_extractLsb' {n : Nat} (x : BitVec n) : BitVec.ofNat 8 x.toNat = x.extractLsb' 0 8 := by
  have h := ofNat_div_eq_extractLsb' x 0
  rwa [Nat.pow_zero, Nat.div_one] at h

theorem leBytes_half (x : BitVec 16) : leBytes 2 x.toNat = halfBytes x := by
  have h1 : BitVec.ofNat 8 (x.toNat / 256) = x.extractLsb' 8 8 := ofNat_div_eq_extractLsb' x 8
  simp only [leBytes, halfBytes, ofNat_eq_extractLsb', h1]

theorem leBytes_word (x : Word) : leBytes 4 x.toNat = wordBytes x := by
  have h1 : BitVec.ofNat 8 (x.toNat / 256) = x.extractLsb' 8 8 := ofNat_div_eq_extractLsb' x 8
  have h2 : BitVec.ofNat 8 (x.toNat / (256 * 256)) = x.extractLsb' 16 8 := ofNat_div_eq_extractLsb' x 16
  have h3 : BitVec.ofNat 8 (x.toNat / (256 * 256 * 256)) = x.extractLsb' 24 8 := ofNat_div_eq_extractLsb' x 24
  simp only [leBytes, wordBytes, ofNat_eq_extractLsb', Nat.div_div_eq_div_mul, h1, h2, h3]

theorem leBytes_nat {n : Nat} (h : n < 4294967296) : leBytes 4 n = wordBytes (BitVec.ofNat 32 n) := by
  rw [← leBytes_word, BitVec.toNat_ofNat, Nat.mod_eq_of_lt (by omega)]

/-- A record's 96 bytes, field by field (R183). -/
theorem Record.layout_eq {r : Record} (check : BitVec 16) (h : r.granule < 4294967296) :
    r.layout check = [r.kind, r.cause] ++ halfBytes check ++ wordBytes r.identity ++ wordBytes r.sequence
      ++ wordBytes r.epoch ++ wordBytes (BitVec.ofNat 32 r.granule) ++ wordBytes r.reopenedFrom
      ++ r.merged :: zeros 7 ++ r.old := by
  unfold Record.layout le32
  rw [leBytes_half, leBytes_word, leBytes_word, leBytes_word, leBytes_word, leBytes_nat h]
  simp only [List.append_assoc, List.cons_append, List.nil_append]

/-- A header copy's 128 bytes, field by field (R184). -/
theorem Header.layout_eq {h : Header} (check : BitVec 16) (h1 : h.slotCount < 4294967296)
    (h2 : h.windowBase < 4294967296) (h3 : h.headSlot < 4294967296) :
    h.layout check = headerTag ++ halfBytes check ++ BitVec.ofNat 8 h.sizeCode :: 0 :: wordBytes h.generation
      ++ wordBytes h.identity ++ wordBytes (BitVec.ofNat 32 h.slotCount) ++ wordBytes (BitVec.ofNat 32 h.windowBase)
      ++ wordBytes (BitVec.ofNat 32 h.headSlot) ++ wordBytes h.headSequence ++ wordBytes h.headEpoch
      ++ wordBytes h.latestBroken ++ wordBytes h.pendingTarget ++ zeros 84 := by
  unfold Header.layout le32
  rw [leBytes_half, leBytes_nat h1, leBytes_nat h2, leBytes_nat h3]
  simp only [leBytes_word, List.append_assoc, List.cons_append]
  rfl

/-- The check field taken as zero leaves the layout with a zero check, over which the CRC-16 runs (R65). -/
theorem Record.clearCheck_layout (r : Record) (check : BitVec 16) :
    clearCheck (r.layout check) 2 = r.layout 0 := by
  unfold clearCheck Record.layout
  simp [leBytes]

theorem Header.clearCheck_layout (h : Header) (check : BitVec 16) :
    clearCheck (h.layout check) 4 = h.layout 0 := by
  unfold clearCheck Header.layout headerTag
  simp [leBytes]

end Sys2Proof.Machine
end

