-- ==== Sys2Proof/Laws/State.lean ====
section
/-! SUPPORT. What each field of the state is after an update of one block. -/

namespace Sys2Proof.Machine

@[simp] theorem State.porn_setPorn (s : State) (x : Bool) : (s.setPorn x).porn = x := rfl
@[simp] theorem State.srstn_setPorn (s : State) (x : Bool) : (s.setPorn x).srstn = s.srstn := rfl
@[simp] theorem State.regions_setPorn (s : State) (x : Bool) : (s.setPorn x).regions = s.regions := rfl
@[simp] theorem State.transit_setPorn (s : State) (x : Bool) : (s.setPorn x).transit = s.transit := rfl
@[simp] theorem State.maps_setPorn (s : State) (x : Bool) : (s.setPorn x).maps = s.maps := rfl
@[simp] theorem State.journal_setPorn (s : State) (x : Bool) : (s.setPorn x).journal = s.journal := rfl
@[simp] theorem State.epochs_setPorn (s : State) (x : Bool) : (s.setPorn x).epochs = s.epochs := rfl
@[simp] theorem State.dport_setPorn (s : State) (x : Bool) : (s.setPorn x).dport = s.dport := rfl
@[simp] theorem State.link_setPorn (s : State) (x : Bool) : (s.setPorn x).link = s.link := rfl
@[simp] theorem State.notices_setPorn (s : State) (x : Bool) : (s.setPorn x).notices = s.notices := rfl
@[simp] theorem State.dmem_setPorn (s : State) (x : Bool) : (s.setPorn x).dmem = s.dmem := rfl
@[simp] theorem State.jmem_setPorn (s : State) (x : Bool) : (s.setPorn x).jmem = s.jmem := rfl
@[simp] theorem State.fresh_setPorn (s : State) (x : Bool) : (s.setPorn x).fresh = s.fresh := rfl
@[simp] theorem State.pending_setPorn (s : State) (x : Bool) : (s.setPorn x).pending = s.pending := rfl

@[simp] theorem State.porn_setSrstn (s : State) (x : Bool) : (s.setSrstn x).porn = s.porn := rfl
@[simp] theorem State.srstn_setSrstn (s : State) (x : Bool) : (s.setSrstn x).srstn = x := rfl
@[simp] theorem State.regions_setSrstn (s : State) (x : Bool) : (s.setSrstn x).regions = s.regions := rfl
@[simp] theorem State.transit_setSrstn (s : State) (x : Bool) : (s.setSrstn x).transit = s.transit := rfl
@[simp] theorem State.maps_setSrstn (s : State) (x : Bool) : (s.setSrstn x).maps = s.maps := rfl
@[simp] theorem State.journal_setSrstn (s : State) (x : Bool) : (s.setSrstn x).journal = s.journal := rfl
@[simp] theorem State.epochs_setSrstn (s : State) (x : Bool) : (s.setSrstn x).epochs = s.epochs := rfl
@[simp] theorem State.dport_setSrstn (s : State) (x : Bool) : (s.setSrstn x).dport = s.dport := rfl
@[simp] theorem State.link_setSrstn (s : State) (x : Bool) : (s.setSrstn x).link = s.link := rfl
@[simp] theorem State.notices_setSrstn (s : State) (x : Bool) : (s.setSrstn x).notices = s.notices := rfl
@[simp] theorem State.dmem_setSrstn (s : State) (x : Bool) : (s.setSrstn x).dmem = s.dmem := rfl
@[simp] theorem State.jmem_setSrstn (s : State) (x : Bool) : (s.setSrstn x).jmem = s.jmem := rfl
@[simp] theorem State.fresh_setSrstn (s : State) (x : Bool) : (s.setSrstn x).fresh = s.fresh := rfl
@[simp] theorem State.pending_setSrstn (s : State) (x : Bool) : (s.setSrstn x).pending = s.pending := rfl

@[simp] theorem State.porn_setRegions (s : State) (x : RegionMatcher) : (s.setRegions x).porn = s.porn := rfl
@[simp] theorem State.srstn_setRegions (s : State) (x : RegionMatcher) : (s.setRegions x).srstn = s.srstn := rfl
@[simp] theorem State.regions_setRegions (s : State) (x : RegionMatcher) : (s.setRegions x).regions = x := rfl
@[simp] theorem State.transit_setRegions (s : State) (x : RegionMatcher) : (s.setRegions x).transit = s.transit := rfl
@[simp] theorem State.maps_setRegions (s : State) (x : RegionMatcher) : (s.setRegions x).maps = s.maps := rfl
@[simp] theorem State.journal_setRegions (s : State) (x : RegionMatcher) : (s.setRegions x).journal = s.journal := rfl
@[simp] theorem State.epochs_setRegions (s : State) (x : RegionMatcher) : (s.setRegions x).epochs = s.epochs := rfl
@[simp] theorem State.dport_setRegions (s : State) (x : RegionMatcher) : (s.setRegions x).dport = s.dport := rfl
@[simp] theorem State.link_setRegions (s : State) (x : RegionMatcher) : (s.setRegions x).link = s.link := rfl
@[simp] theorem State.notices_setRegions (s : State) (x : RegionMatcher) : (s.setRegions x).notices = s.notices := rfl
@[simp] theorem State.dmem_setRegions (s : State) (x : RegionMatcher) : (s.setRegions x).dmem = s.dmem := rfl
@[simp] theorem State.jmem_setRegions (s : State) (x : RegionMatcher) : (s.setRegions x).jmem = s.jmem := rfl
@[simp] theorem State.fresh_setRegions (s : State) (x : RegionMatcher) : (s.setRegions x).fresh = s.fresh := rfl
@[simp] theorem State.pending_setRegions (s : State) (x : RegionMatcher) : (s.setRegions x).pending = s.pending := rfl

@[simp] theorem State.porn_setTransit (s : State) (x : Transit) : (s.setTransit x).porn = s.porn := rfl
@[simp] theorem State.srstn_setTransit (s : State) (x : Transit) : (s.setTransit x).srstn = s.srstn := rfl
@[simp] theorem State.regions_setTransit (s : State) (x : Transit) : (s.setTransit x).regions = s.regions := rfl
@[simp] theorem State.transit_setTransit (s : State) (x : Transit) : (s.setTransit x).transit = x := rfl
@[simp] theorem State.maps_setTransit (s : State) (x : Transit) : (s.setTransit x).maps = s.maps := rfl
@[simp] theorem State.journal_setTransit (s : State) (x : Transit) : (s.setTransit x).journal = s.journal := rfl
@[simp] theorem State.epochs_setTransit (s : State) (x : Transit) : (s.setTransit x).epochs = s.epochs := rfl
@[simp] theorem State.dport_setTransit (s : State) (x : Transit) : (s.setTransit x).dport = s.dport := rfl
@[simp] theorem State.link_setTransit (s : State) (x : Transit) : (s.setTransit x).link = s.link := rfl
@[simp] theorem State.notices_setTransit (s : State) (x : Transit) : (s.setTransit x).notices = s.notices := rfl
@[simp] theorem State.dmem_setTransit (s : State) (x : Transit) : (s.setTransit x).dmem = s.dmem := rfl
@[simp] theorem State.jmem_setTransit (s : State) (x : Transit) : (s.setTransit x).jmem = s.jmem := rfl
@[simp] theorem State.fresh_setTransit (s : State) (x : Transit) : (s.setTransit x).fresh = s.fresh := rfl
@[simp] theorem State.pending_setTransit (s : State) (x : Transit) : (s.setTransit x).pending = s.pending := rfl

@[simp] theorem State.porn_setMaps (s : State) (x : CaptureMaps) : (s.setMaps x).porn = s.porn := rfl
@[simp] theorem State.srstn_setMaps (s : State) (x : CaptureMaps) : (s.setMaps x).srstn = s.srstn := rfl
@[simp] theorem State.regions_setMaps (s : State) (x : CaptureMaps) : (s.setMaps x).regions = s.regions := rfl
@[simp] theorem State.transit_setMaps (s : State) (x : CaptureMaps) : (s.setMaps x).transit = s.transit := rfl
@[simp] theorem State.maps_setMaps (s : State) (x : CaptureMaps) : (s.setMaps x).maps = x := rfl
@[simp] theorem State.journal_setMaps (s : State) (x : CaptureMaps) : (s.setMaps x).journal = s.journal := rfl
@[simp] theorem State.epochs_setMaps (s : State) (x : CaptureMaps) : (s.setMaps x).epochs = s.epochs := rfl
@[simp] theorem State.dport_setMaps (s : State) (x : CaptureMaps) : (s.setMaps x).dport = s.dport := rfl
@[simp] theorem State.link_setMaps (s : State) (x : CaptureMaps) : (s.setMaps x).link = s.link := rfl
@[simp] theorem State.notices_setMaps (s : State) (x : CaptureMaps) : (s.setMaps x).notices = s.notices := rfl
@[simp] theorem State.dmem_setMaps (s : State) (x : CaptureMaps) : (s.setMaps x).dmem = s.dmem := rfl
@[simp] theorem State.jmem_setMaps (s : State) (x : CaptureMaps) : (s.setMaps x).jmem = s.jmem := rfl
@[simp] theorem State.fresh_setMaps (s : State) (x : CaptureMaps) : (s.setMaps x).fresh = s.fresh := rfl
@[simp] theorem State.pending_setMaps (s : State) (x : CaptureMaps) : (s.setMaps x).pending = s.pending := rfl

@[simp] theorem State.porn_setJournal (s : State) (x : Journal) : (s.setJournal x).porn = s.porn := rfl
@[simp] theorem State.srstn_setJournal (s : State) (x : Journal) : (s.setJournal x).srstn = s.srstn := rfl
@[simp] theorem State.regions_setJournal (s : State) (x : Journal) : (s.setJournal x).regions = s.regions := rfl
@[simp] theorem State.transit_setJournal (s : State) (x : Journal) : (s.setJournal x).transit = s.transit := rfl
@[simp] theorem State.maps_setJournal (s : State) (x : Journal) : (s.setJournal x).maps = s.maps := rfl
@[simp] theorem State.journal_setJournal (s : State) (x : Journal) : (s.setJournal x).journal = x := rfl
@[simp] theorem State.epochs_setJournal (s : State) (x : Journal) : (s.setJournal x).epochs = s.epochs := rfl
@[simp] theorem State.dport_setJournal (s : State) (x : Journal) : (s.setJournal x).dport = s.dport := rfl
@[simp] theorem State.link_setJournal (s : State) (x : Journal) : (s.setJournal x).link = s.link := rfl
@[simp] theorem State.notices_setJournal (s : State) (x : Journal) : (s.setJournal x).notices = s.notices := rfl
@[simp] theorem State.dmem_setJournal (s : State) (x : Journal) : (s.setJournal x).dmem = s.dmem := rfl
@[simp] theorem State.jmem_setJournal (s : State) (x : Journal) : (s.setJournal x).jmem = s.jmem := rfl
@[simp] theorem State.fresh_setJournal (s : State) (x : Journal) : (s.setJournal x).fresh = s.fresh := rfl
@[simp] theorem State.pending_setJournal (s : State) (x : Journal) : (s.setJournal x).pending = s.pending := rfl

@[simp] theorem State.porn_setEpochs (s : State) (x : EpochController) : (s.setEpochs x).porn = s.porn := rfl
@[simp] theorem State.srstn_setEpochs (s : State) (x : EpochController) : (s.setEpochs x).srstn = s.srstn := rfl
@[simp] theorem State.regions_setEpochs (s : State) (x : EpochController) : (s.setEpochs x).regions = s.regions := rfl
@[simp] theorem State.transit_setEpochs (s : State) (x : EpochController) : (s.setEpochs x).transit = s.transit := rfl
@[simp] theorem State.maps_setEpochs (s : State) (x : EpochController) : (s.setEpochs x).maps = s.maps := rfl
@[simp] theorem State.journal_setEpochs (s : State) (x : EpochController) : (s.setEpochs x).journal = s.journal := rfl
@[simp] theorem State.epochs_setEpochs (s : State) (x : EpochController) : (s.setEpochs x).epochs = x := rfl
@[simp] theorem State.dport_setEpochs (s : State) (x : EpochController) : (s.setEpochs x).dport = s.dport := rfl
@[simp] theorem State.link_setEpochs (s : State) (x : EpochController) : (s.setEpochs x).link = s.link := rfl
@[simp] theorem State.notices_setEpochs (s : State) (x : EpochController) : (s.setEpochs x).notices = s.notices := rfl
@[simp] theorem State.dmem_setEpochs (s : State) (x : EpochController) : (s.setEpochs x).dmem = s.dmem := rfl
@[simp] theorem State.jmem_setEpochs (s : State) (x : EpochController) : (s.setEpochs x).jmem = s.jmem := rfl
@[simp] theorem State.fresh_setEpochs (s : State) (x : EpochController) : (s.setEpochs x).fresh = s.fresh := rfl
@[simp] theorem State.pending_setEpochs (s : State) (x : EpochController) : (s.setEpochs x).pending = s.pending := rfl

@[simp] theorem State.porn_setDport (s : State) (x : DPort) : (s.setDport x).porn = s.porn := rfl
@[simp] theorem State.srstn_setDport (s : State) (x : DPort) : (s.setDport x).srstn = s.srstn := rfl
@[simp] theorem State.regions_setDport (s : State) (x : DPort) : (s.setDport x).regions = s.regions := rfl
@[simp] theorem State.transit_setDport (s : State) (x : DPort) : (s.setDport x).transit = s.transit := rfl
@[simp] theorem State.maps_setDport (s : State) (x : DPort) : (s.setDport x).maps = s.maps := rfl
@[simp] theorem State.journal_setDport (s : State) (x : DPort) : (s.setDport x).journal = s.journal := rfl
@[simp] theorem State.epochs_setDport (s : State) (x : DPort) : (s.setDport x).epochs = s.epochs := rfl
@[simp] theorem State.dport_setDport (s : State) (x : DPort) : (s.setDport x).dport = x := rfl
@[simp] theorem State.link_setDport (s : State) (x : DPort) : (s.setDport x).link = s.link := rfl
@[simp] theorem State.notices_setDport (s : State) (x : DPort) : (s.setDport x).notices = s.notices := rfl
@[simp] theorem State.dmem_setDport (s : State) (x : DPort) : (s.setDport x).dmem = s.dmem := rfl
@[simp] theorem State.jmem_setDport (s : State) (x : DPort) : (s.setDport x).jmem = s.jmem := rfl
@[simp] theorem State.fresh_setDport (s : State) (x : DPort) : (s.setDport x).fresh = s.fresh := rfl
@[simp] theorem State.pending_setDport (s : State) (x : DPort) : (s.setDport x).pending = s.pending := rfl

@[simp] theorem State.porn_setLink (s : State) (x : Link) : (s.setLink x).porn = s.porn := rfl
@[simp] theorem State.srstn_setLink (s : State) (x : Link) : (s.setLink x).srstn = s.srstn := rfl
@[simp] theorem State.regions_setLink (s : State) (x : Link) : (s.setLink x).regions = s.regions := rfl
@[simp] theorem State.transit_setLink (s : State) (x : Link) : (s.setLink x).transit = s.transit := rfl
@[simp] theorem State.maps_setLink (s : State) (x : Link) : (s.setLink x).maps = s.maps := rfl
@[simp] theorem State.journal_setLink (s : State) (x : Link) : (s.setLink x).journal = s.journal := rfl
@[simp] theorem State.epochs_setLink (s : State) (x : Link) : (s.setLink x).epochs = s.epochs := rfl
@[simp] theorem State.dport_setLink (s : State) (x : Link) : (s.setLink x).dport = s.dport := rfl
@[simp] theorem State.link_setLink (s : State) (x : Link) : (s.setLink x).link = x := rfl
@[simp] theorem State.notices_setLink (s : State) (x : Link) : (s.setLink x).notices = s.notices := rfl
@[simp] theorem State.dmem_setLink (s : State) (x : Link) : (s.setLink x).dmem = s.dmem := rfl
@[simp] theorem State.jmem_setLink (s : State) (x : Link) : (s.setLink x).jmem = s.jmem := rfl
@[simp] theorem State.fresh_setLink (s : State) (x : Link) : (s.setLink x).fresh = s.fresh := rfl
@[simp] theorem State.pending_setLink (s : State) (x : Link) : (s.setLink x).pending = s.pending := rfl

@[simp] theorem State.porn_setNotices (s : State) (x : NoticeUnit) : (s.setNotices x).porn = s.porn := rfl
@[simp] theorem State.srstn_setNotices (s : State) (x : NoticeUnit) : (s.setNotices x).srstn = s.srstn := rfl
@[simp] theorem State.regions_setNotices (s : State) (x : NoticeUnit) : (s.setNotices x).regions = s.regions := rfl
@[simp] theorem State.transit_setNotices (s : State) (x : NoticeUnit) : (s.setNotices x).transit = s.transit := rfl
@[simp] theorem State.maps_setNotices (s : State) (x : NoticeUnit) : (s.setNotices x).maps = s.maps := rfl
@[simp] theorem State.journal_setNotices (s : State) (x : NoticeUnit) : (s.setNotices x).journal = s.journal := rfl
@[simp] theorem State.epochs_setNotices (s : State) (x : NoticeUnit) : (s.setNotices x).epochs = s.epochs := rfl
@[simp] theorem State.dport_setNotices (s : State) (x : NoticeUnit) : (s.setNotices x).dport = s.dport := rfl
@[simp] theorem State.link_setNotices (s : State) (x : NoticeUnit) : (s.setNotices x).link = s.link := rfl
@[simp] theorem State.notices_setNotices (s : State) (x : NoticeUnit) : (s.setNotices x).notices = x := rfl
@[simp] theorem State.dmem_setNotices (s : State) (x : NoticeUnit) : (s.setNotices x).dmem = s.dmem := rfl
@[simp] theorem State.jmem_setNotices (s : State) (x : NoticeUnit) : (s.setNotices x).jmem = s.jmem := rfl
@[simp] theorem State.fresh_setNotices (s : State) (x : NoticeUnit) : (s.setNotices x).fresh = s.fresh := rfl
@[simp] theorem State.pending_setNotices (s : State) (x : NoticeUnit) : (s.setNotices x).pending = s.pending := rfl

@[simp] theorem State.porn_setDmem (s : State) (x : Memory) : (s.setDmem x).porn = s.porn := rfl
@[simp] theorem State.srstn_setDmem (s : State) (x : Memory) : (s.setDmem x).srstn = s.srstn := rfl
@[simp] theorem State.regions_setDmem (s : State) (x : Memory) : (s.setDmem x).regions = s.regions := rfl
@[simp] theorem State.transit_setDmem (s : State) (x : Memory) : (s.setDmem x).transit = s.transit := rfl
@[simp] theorem State.maps_setDmem (s : State) (x : Memory) : (s.setDmem x).maps = s.maps := rfl
@[simp] theorem State.journal_setDmem (s : State) (x : Memory) : (s.setDmem x).journal = s.journal := rfl
@[simp] theorem State.epochs_setDmem (s : State) (x : Memory) : (s.setDmem x).epochs = s.epochs := rfl
@[simp] theorem State.dport_setDmem (s : State) (x : Memory) : (s.setDmem x).dport = s.dport := rfl
@[simp] theorem State.link_setDmem (s : State) (x : Memory) : (s.setDmem x).link = s.link := rfl
@[simp] theorem State.notices_setDmem (s : State) (x : Memory) : (s.setDmem x).notices = s.notices := rfl
@[simp] theorem State.dmem_setDmem (s : State) (x : Memory) : (s.setDmem x).dmem = x := rfl
@[simp] theorem State.jmem_setDmem (s : State) (x : Memory) : (s.setDmem x).jmem = s.jmem := rfl
@[simp] theorem State.fresh_setDmem (s : State) (x : Memory) : (s.setDmem x).fresh = s.fresh := rfl
@[simp] theorem State.pending_setDmem (s : State) (x : Memory) : (s.setDmem x).pending = s.pending := rfl

@[simp] theorem State.porn_setJmem (s : State) (x : Memory) : (s.setJmem x).porn = s.porn := rfl
@[simp] theorem State.srstn_setJmem (s : State) (x : Memory) : (s.setJmem x).srstn = s.srstn := rfl
@[simp] theorem State.regions_setJmem (s : State) (x : Memory) : (s.setJmem x).regions = s.regions := rfl
@[simp] theorem State.transit_setJmem (s : State) (x : Memory) : (s.setJmem x).transit = s.transit := rfl
@[simp] theorem State.maps_setJmem (s : State) (x : Memory) : (s.setJmem x).maps = s.maps := rfl
@[simp] theorem State.journal_setJmem (s : State) (x : Memory) : (s.setJmem x).journal = s.journal := rfl
@[simp] theorem State.epochs_setJmem (s : State) (x : Memory) : (s.setJmem x).epochs = s.epochs := rfl
@[simp] theorem State.dport_setJmem (s : State) (x : Memory) : (s.setJmem x).dport = s.dport := rfl
@[simp] theorem State.link_setJmem (s : State) (x : Memory) : (s.setJmem x).link = s.link := rfl
@[simp] theorem State.notices_setJmem (s : State) (x : Memory) : (s.setJmem x).notices = s.notices := rfl
@[simp] theorem State.dmem_setJmem (s : State) (x : Memory) : (s.setJmem x).dmem = s.dmem := rfl
@[simp] theorem State.jmem_setJmem (s : State) (x : Memory) : (s.setJmem x).jmem = x := rfl
@[simp] theorem State.fresh_setJmem (s : State) (x : Memory) : (s.setJmem x).fresh = s.fresh := rfl
@[simp] theorem State.pending_setJmem (s : State) (x : Memory) : (s.setJmem x).pending = s.pending := rfl

@[simp] theorem State.porn_setFresh (s : State) (x : Nat) : (s.setFresh x).porn = s.porn := rfl
@[simp] theorem State.srstn_setFresh (s : State) (x : Nat) : (s.setFresh x).srstn = s.srstn := rfl
@[simp] theorem State.regions_setFresh (s : State) (x : Nat) : (s.setFresh x).regions = s.regions := rfl
@[simp] theorem State.transit_setFresh (s : State) (x : Nat) : (s.setFresh x).transit = s.transit := rfl
@[simp] theorem State.maps_setFresh (s : State) (x : Nat) : (s.setFresh x).maps = s.maps := rfl
@[simp] theorem State.journal_setFresh (s : State) (x : Nat) : (s.setFresh x).journal = s.journal := rfl
@[simp] theorem State.epochs_setFresh (s : State) (x : Nat) : (s.setFresh x).epochs = s.epochs := rfl
@[simp] theorem State.dport_setFresh (s : State) (x : Nat) : (s.setFresh x).dport = s.dport := rfl
@[simp] theorem State.link_setFresh (s : State) (x : Nat) : (s.setFresh x).link = s.link := rfl
@[simp] theorem State.notices_setFresh (s : State) (x : Nat) : (s.setFresh x).notices = s.notices := rfl
@[simp] theorem State.dmem_setFresh (s : State) (x : Nat) : (s.setFresh x).dmem = s.dmem := rfl
@[simp] theorem State.jmem_setFresh (s : State) (x : Nat) : (s.setFresh x).jmem = s.jmem := rfl
@[simp] theorem State.fresh_setFresh (s : State) (x : Nat) : (s.setFresh x).fresh = x := rfl
@[simp] theorem State.pending_setFresh (s : State) (x : Nat) : (s.setFresh x).pending = s.pending := rfl

@[simp] theorem State.porn_setPending (s : State) (x : List Instr) : (s.setPending x).porn = s.porn := rfl
@[simp] theorem State.srstn_setPending (s : State) (x : List Instr) : (s.setPending x).srstn = s.srstn := rfl
@[simp] theorem State.regions_setPending (s : State) (x : List Instr) : (s.setPending x).regions = s.regions := rfl
@[simp] theorem State.transit_setPending (s : State) (x : List Instr) : (s.setPending x).transit = s.transit := rfl
@[simp] theorem State.maps_setPending (s : State) (x : List Instr) : (s.setPending x).maps = s.maps := rfl
@[simp] theorem State.journal_setPending (s : State) (x : List Instr) : (s.setPending x).journal = s.journal := rfl
@[simp] theorem State.epochs_setPending (s : State) (x : List Instr) : (s.setPending x).epochs = s.epochs := rfl
@[simp] theorem State.dport_setPending (s : State) (x : List Instr) : (s.setPending x).dport = s.dport := rfl
@[simp] theorem State.link_setPending (s : State) (x : List Instr) : (s.setPending x).link = s.link := rfl
@[simp] theorem State.notices_setPending (s : State) (x : List Instr) : (s.setPending x).notices = s.notices := rfl
@[simp] theorem State.dmem_setPending (s : State) (x : List Instr) : (s.setPending x).dmem = s.dmem := rfl
@[simp] theorem State.jmem_setPending (s : State) (x : List Instr) : (s.setPending x).jmem = s.jmem := rfl
@[simp] theorem State.fresh_setPending (s : State) (x : List Instr) : (s.setPending x).fresh = s.fresh := rfl
@[simp] theorem State.pending_setPending (s : State) (x : List Instr) : (s.setPending x).pending = x := rfl

end Sys2Proof.Machine
end

