-- ==== Sys2Proof/Laws/Inner.lean ====
section
/-! SUPPORT. What every shared operation leaves alone: the reset lines, the queue and both memories. With it, that the
notice list stays lawful. The provers cite these instead of unfolding an operation. -/

namespace Sys2Proof.Machine

open Sys2Proof.Safety

/-- The second state differs from the first only inside the part: not in the reset lines, the queue or the memories;
and its notice list is lawful if the first one's was. -/
structure Inner (s t : State) : Prop where
  porn : t.porn = s.porn
  srstn : t.srstn = s.srstn
  pending : t.pending = s.pending
  dmem : t.dmem = s.dmem
  jmem : t.jmem = s.jmem
  notices : NoticesLawful s → NoticesLawful t

theorem Inner.refl (s : State) : Inner s s := ⟨rfl, rfl, rfl, rfl, rfl, id⟩

theorem Inner.trans {s t u : State} (h : Inner s t) (k : Inner t u) : Inner s u :=
  ⟨k.porn.trans h.porn, k.srstn.trans h.srstn, k.pending.trans h.pending, k.dmem.trans h.dmem, k.jmem.trans h.jmem,
    fun x => k.notices (h.notices x)⟩

/-! ## Updates of one block -/

theorem setRegions_inner (s : State) (x : RegionMatcher) : Inner s (s.setRegions x) :=
  ⟨rfl, rfl, rfl, rfl, rfl, fun h => ⟨h.1, h.2⟩⟩

theorem setTransit_inner (s : State) (x : Transit) : Inner s (s.setTransit x) :=
  ⟨rfl, rfl, rfl, rfl, rfl, fun h => ⟨h.1, h.2⟩⟩

theorem setMaps_inner (s : State) (x : CaptureMaps) : Inner s (s.setMaps x) :=
  ⟨rfl, rfl, rfl, rfl, rfl, fun h => ⟨h.1, h.2⟩⟩

theorem setJournal_inner (s : State) (x : Journal) : Inner s (s.setJournal x) :=
  ⟨rfl, rfl, rfl, rfl, rfl, fun h => ⟨h.1, h.2⟩⟩

theorem setEpochs_inner (s : State) (x : EpochController) : Inner s (s.setEpochs x) :=
  ⟨rfl, rfl, rfl, rfl, rfl, fun h => ⟨h.1, h.2⟩⟩

theorem setDport_inner (s : State) (x : DPort) : Inner s (s.setDport x) :=
  ⟨rfl, rfl, rfl, rfl, rfl, fun h => ⟨h.1, h.2⟩⟩

theorem setLink_inner (s : State) (x : Link) : Inner s (s.setLink x) :=
  ⟨rfl, rfl, rfl, rfl, rfl, fun h => ⟨h.1, h.2⟩⟩

theorem setFresh_inner (s : State) (x : Nat) : Inner s (s.setFresh x) :=
  ⟨rfl, rfl, rfl, rfl, rfl, fun h => ⟨h.1, h.2⟩⟩

theorem setEngine_inner (e : Engine) (s : State) : Inner s (setEngine e s) := setEpochs_inner s _

theorem setAccess_inner (a : Access) (s : State) : Inner s (setAccess a s) := setTransit_inner s _

theorem setClaims_inner (c : Claims) (s : State) : Inner s (setClaims c s) := setTransit_inner s _

theorem answerBeat_inner (b : UBeat) (s : State) : Inner s (answerBeat b s) := setTransit_inner s _

theorem setMarker_inner (m : MarkerWrite) (s : State) : Inner s (setMarker m s) := setJournal_inner s _

theorem setHeader_inner (h : HeaderWriter) (s : State) : Inner s (setHeader h s) := setJournal_inner s _

theorem setWalker_inner (w : Walker) (s : State) : Inner s (setWalker w s) := setEpochs_inner s _

theorem setRecovery_inner (r : RecoveryStage) (s : State) : Inner s (setRecovery r s) := setEpochs_inner s _

theorem nextFresh_inner (s : State) : Inner s (nextFresh s) := setFresh_inner s _

theorem setFormat_inner (f : FormatStage) (s : State) : Inner s (setFormat f s) := setEpochs_inner s _

theorem clearDirty_inner (s : State) : Inner s (clearDirty s) := setJournal_inner s _

theorem endHeader_inner (s : State) : Inner s (endHeader s) := setHeader_inner _ s

theorem freeD_inner (s : State) : Inner s (freeD s) := setDport_inner s _

theorem freeJ_inner (s : State) : Inner s (freeJ s) := setJournal_inner s _

theorem returnSlot_inner (s : State) : Inner s (returnSlot s) := setJournal_inner s _

theorem endReadSlot_inner (s : State) : Inner s (endReadSlot s) := setJournal_inner s _

theorem takeOldBurst_inner (a : Access) (s : State) : Inner s (takeOldBurst a s) := setTransit_inner s _

theorem beginHeader_inner (kind : HeaderKind) (copy : Copy) (generation : Word) (reqs : List HeaderRequest) (s : State) :
    Inner s (beginHeader kind copy generation reqs s) := setJournal_inner s _

theorem beginRequested_inner (reqs : List HeaderRequest) (s : State) : Inner s (beginRequested reqs s) :=
  beginHeader_inner _ _ _ _ s

theorem beginMarker_inner (p : MarkerPurpose) (epoch : Word) (g : SlotGrant) (cause : Cause) (merged : Nat)
    (reopenedFrom : Word) (s : State) : Inner s (beginMarker p epoch g cause merged reopenedFrom s) :=
  setMarker_inner _ s

theorem claimCut_inner (b : CutBy) (s : State) : Inner s (claimCut b s) :=
  (setEpochs_inner s _).trans (setClaims_inner _ _)

theorem recordCapture_inner (a : Nat) (s : State) : Inner s (recordCapture a s) :=
  (setMaps_inner s _).trans (setEpochs_inner _ _)

theorem settleMap_inner (i : MapId) (s : State) : Inner s (settleMap i s) := by
  unfold settleMap
  split
  · exact setMaps_inner s _
  · exact Inner.refl s

theorem withdrawD_inner (s : State) : Inner s (withdrawD s) := by
  unfold withdrawD
  split
  · exact freeD_inner s
  · exact Inner.refl s

theorem disownJ_inner (c : JClient) (s : State) : Inner s (disownJ c s) := by
  unfold disownJ
  split
  · exact Inner.refl s
  · split
    · exact setJournal_inner s _
    · exact Inner.refl s

theorem abandonHeader_inner (s : State) : Inner s (abandonHeader s) := by
  unfold abandonHeader
  split
  · exact Inner.refl s
  · exact setHeader_inner _ s

/-! ## Notices and answers -/

theorem postList_kinds (l : List NoticeEntry) (n : Notice) (k : Nat) :
    k ∈ (postList l n).map (fun e => e.notice.kind) ↔ k = n.kind ∨ k ∈ l.map fun e => e.notice.kind := by
  induction l with
  | nil => simp [postList]
  | cons e t ih =>
    unfold postList
    split
    · rename_i h
      simp only [List.map_cons, List.mem_cons]
      rw [h]
      tauto
    · simp only [List.map_cons, List.mem_cons, ih]
      tauto

theorem postList_nodup {l : List NoticeEntry} (n : Notice) (h : (l.map fun e => e.notice.kind).Nodup) :
    ((postList l n).map fun e => e.notice.kind).Nodup := by
  induction l with
  | nil => simp [postList]
  | cons e t ih =>
    simp only [List.map_cons, List.nodup_cons] at h
    unfold postList
    split
    · simpa using h
    · rename_i hk
      simp only [List.map_cons, List.nodup_cons, postList_kinds]
      exact ⟨fun x => x.elim hk h.1, ih h.2⟩

theorem postList_counts {l : List NoticeEntry} (n : Notice) (h : ∀ e ∈ l, 1 ≤ e.count ∧ e.count ≤ 255) :
    ∀ e ∈ postList l n, 1 ≤ e.count ∧ e.count ≤ 255 := by
  induction l with
  | nil => simp [postList]
  | cons e t ih =>
    unfold postList
    split
    · intro x hx
      rcases List.mem_cons.1 hx with rfl | hx
      · exact ⟨by simp, by simp⟩
      · exact h x (List.mem_cons_of_mem _ hx)
    · intro x hx
      rcases List.mem_cons.1 hx with rfl | hx
      · exact h _ (List.mem_cons_self ..)
      · exact ih (fun y hy => h y (List.mem_cons_of_mem _ hy)) x hx

theorem post_inner (n : Notice) (s : State) : Inner s (post n s) := by
  unfold post
  split
  · exact Inner.refl s
  · exact ⟨rfl, rfl, rfl, rfl, rfl, fun h => ⟨postList_nodup n h.1, postList_counts n h.2⟩⟩

theorem answer_inner (st : Status) (data : List Byte) (s : State) : Inner s (answer st data s) := by
  unfold answer
  split
  · exact setLink_inner s _
  · exact Inner.refl s
  · exact Inner.refl s

/-! ## The ring and the arbiters -/

theorem lowWaterTest_inner (before : Nat) (s : State) : Inner s (lowWaterTest before s) := by
  unfold lowWaterTest
  split
  · exact post_inner _ s
  · exact Inner.refl s

theorem allocate_inner (s : State) : Inner s (allocate s) := (setJournal_inner s _).trans (lowWaterTest_inner _ _)

theorem grantD_inner (s : State) : Inner s (grantD s) := by
  unfold grantD
  split
  · exact Inner.refl s
  · split
    · exact Inner.refl s
    · exact setDport_inner s _
    · exact setDport_inner s _

theorem grantJ_inner (s : State) : Inner s (grantJ s) := by
  unfold grantJ
  split
  · exact Inner.refl s
  · split
    · exact Inner.refl s
    · exact setJournal_inner s _

theorem arbitrate_inner (s : State) : Inner s (arbitrate s) := (grantD_inner s).trans (grantJ_inner _)

/-! ## Header requests and the ends of RECOVER -/

theorem recoverFail_inner (o : RecoverOutcome) (s : State) : Inner s (recoverFail o s) :=
  (((setMaps_inner s _).trans (setJournal_inner _ _)).trans (setEpochs_inner _ _)).trans (post_inner _ _)

theorem recoverEnd_inner (o : RecoverOutcome) (e : Engine) (s : State) : Inner s (recoverEnd o e s) :=
  (setEpochs_inner s _).trans (post_inner _ _)

theorem failRequest_inner (s : State) (r : HeaderRequest) : Inner s (failRequest s r) := by
  unfold failRequest
  split
  · exact Inner.refl s
  · split
    · exact answer_inner _ _ s
    · exact Inner.refl s
  · exact Inner.refl s
  · split
    · exact setWalker_inner _ s
    · exact Inner.refl s
  · exact Inner.refl s
  · exact Inner.refl s
  · split
    · exact recoverFail_inner _ s
    · exact Inner.refl s

theorem failRequests_inner (rs : List HeaderRequest) (s : State) : Inner s (failRequests rs s) := by
  induction rs generalizing s with
  | nil => exact Inner.refl s
  | cons r t ih => exact (failRequest_inner s r).trans (ih _)

theorem requestHeader_inner (r : HeaderRequest) (s : State) : Inner s (requestHeader r s) := by
  unfold requestHeader
  split
  · exact failRequest_inner s r
  · split
    · exact beginRequested_inner _ s
    · exact setHeader_inner _ s

/-! ## Claims -/

theorem takeCommit_inner (s : State) : Inner s (takeCommit s) := by
  unfold takeCommit
  split
  · dsimp only
    split
    all_goals first
      | exact ((setClaims_inner _ s).trans (setRegions_inner _ _)).trans (answer_inner _ _ _)
      | exact (setClaims_inner _ s).trans (answer_inner _ _ _)
  · exact Inner.refl s

theorem cut_inner (b : CutBy) (s : State) : Inner s (cut b s) :=
  (((allocate_inner s).trans (setEpochs_inner _ _)).trans (setMaps_inner _ _)).trans (beginMarker_inner _ _ _ _ _ _ _)

theorem takeCut_inner (s : State) : Inner s (takeCut s) := by
  unfold takeCut
  split
  · exact Inner.refl s
  · dsimp only
    split
    · exact (setClaims_inner _ s).trans (cut_inner _ _)
    · exact (setClaims_inner _ s).trans (setEpochs_inner _ _)

theorem takeStart_inner (s : State) : Inner s (takeStart s) := by
  unfold takeStart
  split
  · exact Inner.refl s
  · dsimp only
    split
    · exact (((setClaims_inner _ s).trans (setEpochs_inner _ _)).trans (setEpochs_inner _ _)).trans
        (requestHeader_inner _ _)
    · exact (setClaims_inner _ s).trans (setEpochs_inner _ _)

theorem takeAll_inner (s : State) : Inner s (takeStart (takeCut (takeCommit s))) :=
  ((takeCommit_inner s).trans (takeCut_inner _)).trans (takeStart_inner _)

theorem boundary_inner (s : State) : Inner s (boundary s) := by
  unfold boundary
  split
  · exact takeAll_inner s
  · exact Inner.refl s

theorem claimed_inner (s : State) : Inner s (claimed s) := by
  unfold claimed
  split
  · exact boundary_inner s
  · exact Inner.refl s

theorem takeLeftover_inner (s : State) : Inner s (takeLeftover s) := by
  unfold takeLeftover
  split
  · split
    · exact (nextFresh_inner s).trans (takeAll_inner _)
    · exact (((nextFresh_inner s).trans (takeCut_inner _)).trans (takeStart_inner _)).trans (takeCommit_inner _)
  · exact takeAll_inner s

theorem settle_inner (s : State) : Inner s (settle s) := by
  unfold settle
  split
  · exact (takeLeftover_inner s).trans (arbitrate_inner _)
  · exact Inner.refl s

/-! ## MARK requests, the end of an access, changes of engine state -/

theorem markRequest_inner (s : State) : Inner s (markRequest s) := by
  unfold markRequest
  split
  · exact Inner.refl s
  · dsimp only
    split
    · exact setEpochs_inner s _
    · split
      · exact (setEpochs_inner s _).trans (claimCut_inner _ _)
      · exact (setEpochs_inner s _).trans (post_inner _ _)

theorem reevaluate_inner (s : State) : Inner s (reevaluate s) := by
  unfold reevaluate
  split
  · exact (claimCut_inner _ s).trans (claimed_inner _)
  · exact Inner.refl s

theorem dropAccess_inner (s : State) : Inner s (dropAccess s) := (setTransit_inner s _).trans (withdrawD_inner _)

theorem endAccess_inner (marks : Bool) (s : State) : Inner s (endAccess marks s) := by
  unfold endAccess
  split
  · exact ((dropAccess_inner s).trans (markRequest_inner _)).trans (boundary_inner _)
  · exact (dropAccess_inner s).trans (boundary_inner _)

theorem answerErr_inner (write : Bool) (s : State) : Inner s (answerErr write s) :=
  (answerBeat_inner _ s).trans (endAccess_inner _ _)

theorem refuseAccess_inner (a : Access) (e : Engine) (s : State) : Inner s (refuseAccess a e s) :=
  (post_inner _ s).trans (answerErr_inner _ _)

theorem settleCapture_inner (a : Access) (e : Engine) (s : State) : Inner s (settleCapture a e s) := by
  unfold settleCapture
  split
  · split
    · exact returnSlot_inner s
    · exact returnSlot_inner s
    · exact recordCapture_inner _ s
    all_goals exact Inner.refl s
  · exact Inner.refl s

theorem cutAccess_inner (e : Engine) (s : State) : Inner s (cutAccess e s) := by
  unfold cutAccess
  split
  · exact Inner.refl s
  · split
    · split
      · split
        · split
          · split
            · exact (nextFresh_inner s).trans (setAccess_inner _ _)
            · exact ((nextFresh_inner s).trans (post_inner _ _)).trans (setAccess_inner _ _)
          · exact (nextFresh_inner s).trans (refuseAccess_inner _ _ _)
        · exact refuseAccess_inner _ _ s
      · exact (settleCapture_inner _ _ s).trans (refuseAccess_inner _ _ _)
      · exact ((disownJ_inner _ s).trans (settleCapture_inner _ _ _)).trans (refuseAccess_inner _ _ _)
      · exact (settleCapture_inner _ _ s).trans (refuseAccess_inner _ _ _)
      · exact refuseAccess_inner _ _ s
      · exact refuseAccess_inner _ _ s
      · exact Inner.refl s
    · exact Inner.refl s

theorem enterFaulted_inner (s : State) : Inner s (enterFaulted s) :=
  ((((setEpochs_inner s _).trans (disownJ_inner _ _)).trans (clearDirty_inner _)).trans
    (failRequests_inner _ _)).trans (cutAccess_inner _ _)

theorem formatFail_inner (s : State) : Inner s (formatFail s) := (setEpochs_inner s _).trans (post_inner _ _)

theorem breakEpoch_inner (c : BreakCause) (s : State) : Inner s (breakEpoch c s) :=
  ((setEpochs_inner s _).trans (requestHeader_inner _ _)).trans (post_inner _ _)

theorem finishSettling_inner (s : State) : Inner s (finishSettling s) := by
  unfold finishSettling
  split
  · exact (setEngine_inner _ s).trans (post_inner _ _)
  · exact Inner.refl s

theorem halt_inner (c : HaltCause) (slot : Nat) (s : State) : Inner s (halt c slot s) := by
  unfold halt
  dsimp only
  split
  · exact ((setEpochs_inner s _).trans (post_inner _ _)).trans (answer_inner _ _ _)
  · exact (setEpochs_inner s _).trans (post_inner _ _)

/-! ## The upstream access -/

theorem startCapture_inner (a : Access) (s : State) : Inner s (startCapture a s) :=
  (allocate_inner s).trans (setAccess_inner _ _)

theorem fullJournal_inner (a : Access) (s : State) : Inner s (fullJournal a s) := by
  unfold fullJournal
  split
  · exact (setAccess_inner _ s).trans (breakEpoch_inner _ _)
  · exact ((setAccess_inner _ s).trans (setTransit_inner _ _)).trans (post_inner _ _)

theorem captureTests_inner (a : Access) (s : State) : Inner s (captureTests a s) := by
  unfold captureTests
  split
  · exact setAccess_inner _ s
  · split
    · exact setAccess_inner _ s
    · split
      · exact startCapture_inner a s
      · exact fullJournal_inner a s

theorem dispatch_inner (a : Access) (s : State) : Inner s (dispatch a s) := by
  have governed : Inner s (if a.engineAt.refuses then refuseAccess a a.engineAt s
      else if a.write ∧ a.engineAt = .journaling then captureTests a s else s) := by
    split
    · exact refuseAccess_inner _ _ s
    · split
      · exact captureTests_inner a s
      · exact Inner.refl s
  unfold dispatch
  split
  · exact answerErr_inner _ s
  · split
    · exact (post_inner _ s).trans (answerErr_inner _ _)
    · exact Inner.refl s
    · exact Inner.refl s
    · exact governed
    · exact governed

theorem arrive_inner (ua : BitVec 24) (write burst priv : Bool) (s : State) :
    Inner s (arrive ua write burst priv s) :=
  (setTransit_inner s _).trans (dispatch_inner _ _)

theorem failCapture_inner (a : Access) (op : PortOperation) (addr : Nat) (s : State) :
    Inner s (failCapture a op addr s) :=
  ((returnSlot_inner s).trans (post_inner _ _)).trans (answerErr_inner _ _)

theorem recordComplete_inner (a : Access) (s : State) : Inner s (recordComplete a s) := by
  unfold recordComplete
  split
  · exact (recordCapture_inner _ s).trans (setAccess_inner _ _)
  · exact setAccess_inner _ s

theorem settleAbandoned_inner (a : Access) (s : State) : Inner s (settleAbandoned a s) := by
  unfold settleAbandoned
  split
  · exact Inner.refl s
  · split
    · exact returnSlot_inner s
    · exact Inner.refl s
  · split
    · exact (disownJ_inner _ s).trans (returnSlot_inner _)
    · exact disownJ_inner _ s
  · split
    · exact recordCapture_inner _ s
    · exact Inner.refl s
  all_goals exact Inner.refl s

theorem abandon_inner (s : State) : Inner s (abandon s) := by
  unfold abandon
  split
  · exact Inner.refl s
  · exact ((settleAbandoned_inner _ s).trans (dropAccess_inner _)).trans (boundary_inner _)

/-! ## The walk -/

theorem walkBegin_inner (s : State) : Inner s (walkBegin s) := setWalker_inner _ s

theorem endStep_inner (w : Walker) (s : State) : Inner s (endStep w s) := by
  unfold endStep
  split
  · exact halt_inner _ _ s
  · exact setWalker_inner _ s

theorem arriveTarget_inner (e : Entry) (s : State) : Inner s (arriveTarget e s) :=
  (((setJournal_inner s _).trans (allocate_inner _)).trans (setEpochs_inner _ _)).trans
    (beginMarker_inner _ _ _ _ _ _ _)

theorem walkMarker_inner (e : Entry) (s : State) : Inner s (walkMarker e s) := by
  unfold walkMarker
  dsimp only
  split
  · split
    · exact halt_inner _ _ s
    · exact arriveTarget_inner e s
  · split
    · exact halt_inner _ _ s
    · exact endStep_inner _ s

theorem walkSlot_inner (bs : List Byte) (s : State) : Inner s (walkSlot bs s) := by
  unfold walkSlot
  dsimp only
  split
  · exact halt_inner _ _ s
  · split
    · split
      · exact walkMarker_inner _ s
      · exact setWalker_inner _ s
    · exact halt_inner _ _ s

/-! ## The ends of MARKER writes, header writes and sweeps -/

theorem formatCopyA_inner (s : State) : Inner s (formatCopyA s) := by
  unfold formatCopyA
  split
  · exact (setFormat_inner _ s).trans (beginHeader_inner _ _ _ _ _)
  · exact setFormat_inner _ s

theorem formatMarker_inner (s : State) : Inner s (formatMarker s) :=
  ((setEpochs_inner s _).trans (setJournal_inner _ _)).trans (beginMarker_inner _ _ _ _ _ _ _)

theorem formatDone_inner (s : State) : Inner s (formatDone s) :=
  ((setMaps_inner s _).trans (setEpochs_inner _ _)).trans (post_inner _ _)

theorem releaseWaitMarker_inner (s : State) : Inner s (releaseWaitMarker s) := by
  unfold releaseWaitMarker
  split
  · exact Inner.refl s
  · split
    · split
      · exact (recordCapture_inner _ s).trans (setAccess_inner _ _)
      · exact setAccess_inner _ s
    · exact Inner.refl s

theorem reopenComplete_inner (s : State) : Inner s (reopenComplete s) :=
  ((setEpochs_inner s _).trans (requestHeader_inner _ _)).trans (setMaps_inner _ _)

theorem markerDone_inner (j : MarkerJob) (s : State) : Inner s (markerDone j s) := by
  have h : Inner s (releaseWaitMarker (setMarker .none s)) :=
    (setMarker_inner _ s).trans (releaseWaitMarker_inner _)
  unfold markerDone
  dsimp only
  split
  · exact h.trans (requestHeader_inner _ _)
  · split
    · exact h.trans (formatCopyA_inner _)
    · exact h
  · split
    · exact h.trans (reopenComplete_inner _)
    · exact h

theorem markerFailed_inner (j : MarkerJob) (s : State) : Inner s (markerFailed j s) := by
  unfold markerFailed
  dsimp only
  split
  · exact (setMarker_inner _ s).trans (formatFail_inner _)
  · split
    · exact (setMarker_inner _ s).trans (enterFaulted_inner _)
    · exact setMarker_inner _ s

theorem retestSpace_inner (s : State) : Inner s (retestSpace s) := by
  unfold retestSpace
  split
  · exact Inner.refl s
  · split
    · exact (setTransit_inner s _).trans (startCapture_inner _ _)
    · exact Inner.refl s

theorem releaseDone_inner (s : State) : Inner s (releaseDone s) := by
  unfold releaseDone
  dsimp only
  split
  · exact (((setJournal_inner s _).trans (answer_inner _ _ _)).trans (reevaluate_inner _)).trans (retestSpace_inner _)
  · exact ((setJournal_inner s _).trans (reevaluate_inner _)).trans (retestSpace_inner _)

theorem breakRecorded_inner (e : Word) (s : State) : Inner s (breakRecorded e s) := by
  unfold breakRecorded
  split
  · dsimp only
    split
    · exact setEpochs_inner s _
    · split
      · exact (setEpochs_inner s _).trans (setAccess_inner _ _)
      · exact setEpochs_inner s _
  · exact Inner.refl s

theorem checkpointDone_inner (e : Word) (c : Cause) (slot merged : Nat) (s : State) :
    Inner s (checkpointDone e c slot merged s) := by
  unfold checkpointDone
  split
  · exact ((setEpochs_inner s _).trans (post_inner _ _)).trans (reevaluate_inner _)
  · exact Inner.refl s

theorem doneRequest_inner (s : State) (r : HeaderRequest) : Inner s (doneRequest s r) := by
  unfold doneRequest
  split
  · exact checkpointDone_inner _ _ _ _ s
  · exact releaseDone_inner s
  · exact breakRecorded_inner _ s
  · split
    · exact walkBegin_inner s
    · exact Inner.refl s
  · exact Inner.refl s
  · exact (setEpochs_inner s _).trans (finishSettling_inner _)
  · split
    · exact recoverEnd_inner _ _ s
    · exact Inner.refl s

theorem doneRequests_inner (rs : List HeaderRequest) (s : State) : Inner s (rs.foldl doneRequest s) := by
  induction rs generalizing s with
  | nil => exact Inner.refl s
  | cons r t ih => exact (doneRequest_inner s r).trans (ih _)

theorem beginDirty_inner (s : State) : Inner s (beginDirty s) := by
  unfold beginDirty
  split
  · exact (clearDirty_inner s).trans (beginRequested_inner _ _)
  · exact Inner.refl s

theorem resumeFormat_inner (s : State) : Inner s (resumeFormat s) := by
  unfold resumeFormat
  split
  · exact formatCopyA_inner s
  · exact Inner.refl s

theorem headerDone_inner (j : HeaderJob) (s : State) : Inner s (headerDone j s) := by
  unfold headerDone
  dsimp only
  split
  · exact ((endHeader_inner s).trans (doneRequests_inner _ _)).trans (beginDirty_inner _)
  · exact ((endHeader_inner s).trans (setFormat_inner _ _)).trans (beginHeader_inner _ _ _ _ _)
  · exact (endHeader_inner s).trans (formatDone_inner _)
  · exact (endHeader_inner s).trans (resumeFormat_inner _)

theorem headerFailed_inner (j : HeaderJob) (s : State) : Inner s (headerFailed j s) := by
  unfold headerFailed
  dsimp only
  split
  · split
    · exact ((endHeader_inner s).trans (enterFaulted_inner _)).trans (failRequests_inner _ _)
    · exact (((endHeader_inner s).trans (clearDirty_inner _)).trans (failRequests_inner _ _)).trans
        (failRequests_inner _ _)
  · exact (endHeader_inner s).trans (formatFail_inner _)
  · exact (endHeader_inner s).trans (formatFail_inner _)
  · exact (endHeader_inner s).trans (resumeFormat_inner _)

theorem sweepStage_inner (r : Sweep) {next : State → State} (hn : ∀ s, Inner s (next s)) (s : State) :
    Inner s (sweepStage r next s) := by
  unfold sweepStage
  split
  · exact setMaps_inner s _
  · split
    · exact hn s
    · exact Inner.refl s

theorem sweepDone_inner (r : Sweep) (s : State) : Inner s (sweepDone r s) := by
  have h : Inner s (s.setMaps (endSweep s.maps)) := setMaps_inner s _
  unfold sweepDone
  dsimp only
  split
  · exact (h.trans (settleMap_inner _ _)).trans (finishSettling_inner _)
  · split
    · exact h.trans (sweepStage_inner r formatMarker_inner _)
    · exact h
  · split
    · exact h.trans (sweepStage_inner r (fun s => setRecovery_inner _ s) _)
    all_goals exact h
  · exact h.trans (reevaluate_inner _)
  all_goals exact h

/-! ## RECOVER -/

theorem copiesRead_inner (bs : List Byte) (s : State) : Inner s (copiesRead bs s) := by
  unfold copiesRead
  split
  · exact recoverFail_inner _ s
  · dsimp only
    split
    · exact (setHeader_inner _ s).trans (recoverFail_inner _ _)
    · split
      · exact (setHeader_inner _ s).trans (recoverFail_inner _ _)
      · exact (((setHeader_inner _ s).trans (setJournal_inner _ _)).trans (setMaps_inner _ _)).trans
          (setRecovery_inner _ _)

theorem settleTarget_inner (h : Header) (sc : Scan) (s : State) : Inner s (settleTarget h sc s) := by
  have k : Inner s (setRecovery (.header h sc) s) := setRecovery_inner _ s
  unfold settleTarget
  dsimp only
  split
  · exact k.trans (recoverEnd_inner _ _ _)
  · split
    · exact (k.trans (setEpochs_inner _ _)).trans (requestHeader_inner _ _)
    · exact (k.trans (setEpochs_inner _ _)).trans (recoverEnd_inner _ _ _)

theorem rebuild_inner (h : Header) (sc : Scan) (s : State) : Inner s (rebuild h sc s) := by
  unfold rebuild
  dsimp only
  split
  · exact (((setJournal_inner s _).trans (setEpochs_inner _ _)).trans (setMaps_inner _ _)).trans
      (settleTarget_inner _ _ _)
  · exact (((setJournal_inner s _).trans (setEpochs_inner _ _)).trans (setMaps_inner _ _)).trans
      (setRecovery_inner _ _)

theorem scanSlot_inner (h : Header) (sc : Scan) (bs : List Byte) (s : State) : Inner s (scanSlot h sc bs s) := by
  unfold scanSlot
  dsimp only
  generalize (if sc.records = 0 then headAccepted h.identity h bs else nextAccepted h.identity h.window sc bs) = ok
  cases ok
  · simp only [Bool.false_eq_true, if_false]
    split
    · exact recoverFail_inner _ s
    · exact rebuild_inner _ _ s
  · simp only [if_true]
    split
    · exact (setRecovery_inner _ s).trans (recoverFail_inner _ _)
    · split
      · exact (setRecovery_inner _ s).trans (rebuild_inner _ _ _)
      · exact setRecovery_inner _ s

theorem loadSlot_inner (h : Header) (sc : Scan) (ld : MapLoad) (bs : List Byte) (s : State) :
    Inner s (loadSlot h sc ld bs s) := by
  unfold loadSlot
  dsimp only
  have k : Inner s (if (Record.decode bs).kind = kindUndo then s.setMaps (setBit s.maps (Record.decode bs).granule)
      else s) := by
    split
    · exact setMaps_inner s _
    · exact Inner.refl s
  split
  · split
    · exact k.trans (settleTarget_inner _ _ _)
    · exact k.trans (setRecovery_inner _ _)
  · exact recoverFail_inner _ s

/-! ## Frames and the management commands -/

theorem judgeFrame_inner (code : Byte) (f : Frame) {owner : State → State} (ho : ∀ s, Inner s (owner s)) (s : State) :
    Inner s (judgeFrame code f owner s) := by
  unfold judgeFrame
  dsimp only
  split
  · split
    · exact setLink_inner s _
    · split
      · exact setLink_inner s _
      · split
        · exact setLink_inner s _
        · split
          · exact setLink_inner s _
          · exact (setLink_inner s _).trans (ho _)
  · exact Inner.refl s

theorem claimCommit_inner (s : State) : Inner s (claimCommit s) := (setClaims_inner _ s).trans (claimed_inner _)

theorem validateCommit_inner (s : State) : Inner s (validateCommit s) := by
  unfold validateCommit
  split
  · exact claimCommit_inner s
  · split
    · exact answer_inner _ _ s
    · exact claimCommit_inner s

theorem acceptFormat_inner (g : Geometry) (s : State) : Inner s (acceptFormat g s) :=
  (((((((answer_inner _ _ s).trans (setEpochs_inner _ _)).trans (disownJ_inner _ _)).trans
    (setJournal_inner _ _)).trans (clearDirty_inner _)).trans (abandonHeader_inner _)).trans
    (setMaps_inner _ _)).trans (cutAccess_inner _ _)

theorem acceptRecover_inner (s : State) : Inner s (acceptRecover s) :=
  ((answer_inner _ _ s).trans (setEpochs_inner _ _)).trans (cutAccess_inner _ _)

theorem takeRelease_inner (e : Word) (s : State) : Inner s (takeRelease e s) :=
  ((setEpochs_inner s _).trans (setJournal_inner _ _)).trans (requestHeader_inner _ _)

theorem endStall_inner (s : State) : Inner s (endStall s) := by
  unfold endStall
  split
  · exact Inner.refl s
  · split
    · exact refuseAccess_inner _ _ s
    · exact Inner.refl s

theorem acceptRollback_inner (k : Word) (s : State) : Inner s (acceptRollback k s) := by
  unfold acceptRollback
  dsimp only
  split
  · exact (((answer_inner _ _ s).trans (setEpochs_inner _ _)).trans (setClaims_inner _ _)).trans (boundary_inner _)
  · exact (((answer_inner _ _ s).trans (setEpochs_inner _ _)).trans (setClaims_inner _ _)).trans (endStall_inner _)

/-! ## Outcomes -/

theorem Inner.canonical {s t : State} (h : Inner s t) (k : MemoriesCanonical s) : MemoriesCanonical t :=
  ⟨h.dmem ▸ k.1, h.jmem ▸ k.2⟩

theorem quiet_inner {f : State → State} (hf : ∀ s, Inner s (f s)) (s : State) :
    ∃ t, quiet s f = .next t ∧ Inner s t := by
  unfold quiet
  split
  · exact ⟨s, rfl, Inner.refl s⟩
  · exact ⟨_, rfl, (settle_inner s).trans (hf _)⟩

theorem act_inner {f : State → State} (hf : ∀ s, Inner s (f s)) (s : State) :
    ∃ t, act s f = .next t ∧ Inner s t :=
  quiet_inner (fun s => (hf s).trans (arbitrate_inner _)) s

theorem actOnClaims_inner {f : State → State} (hf : ∀ s, Inner s (f s)) (s : State) :
    ∃ t, actOnClaims s f = .next t ∧ Inner s t := by
  unfold actOnClaims
  split
  · exact ⟨s, rfl, Inner.refl s⟩
  · exact ⟨_, rfl, (hf s).trans (arbitrate_inner _)⟩

end Sys2Proof.Machine
end

