-- ==== Sys2Proof/Laws/Memory.lean ====
section
/-! SUPPORT. The canonical form of a memory is kept by every write, and what a read gives after a write (log 2). -/

namespace Sys2Proof.Machine

theorem Memory.wfFrom_mono {m : Memory} {lo lo' : Nat} (h : m.wfFrom lo = true) (hl : lo' ≤ lo) :
    m.wfFrom lo' = true := by
  cases m with
  | nil => rfl
  | cons c t =>
    obtain ⟨k, v⟩ := c
    simp only [Memory.wfFrom, Bool.and_eq_true, decide_eq_true_eq] at h ⊢
    exact ⟨⟨by omega, h.1.2⟩, h.2⟩

theorem Memory.wfFrom_write {m : Memory} {lo a : Nat} {v : Byte} (h : m.wfFrom lo = true) (ha : lo ≤ a) :
    (m.write a v).wfFrom lo = true := by
  induction m generalizing lo with
  | nil =>
    unfold Memory.write
    split
    · rfl
    · simp [Memory.wfFrom, *]
  | cons c t ih =>
    obtain ⟨k, w⟩ := c
    simp only [Memory.wfFrom, Bool.and_eq_true, decide_eq_true_eq] at h
    unfold Memory.write
    split
    · split
      · simp [Memory.wfFrom, h]
      · have hk : a + 1 ≤ k := by omega
        simp_all [Memory.wfFrom]
    · split
      · subst a
        split
        · exact Memory.wfFrom_mono h.2 (by omega)
        · simp_all [Memory.wfFrom]
      · simp only [Memory.wfFrom, Bool.and_eq_true, decide_eq_true_eq]
        exact ⟨h.1, ih h.2 (by omega)⟩

theorem Memory.wf_write {m : Memory} (a : Nat) (v : Byte) (h : m.wf = true) : (m.write a v).wf = true :=
  Memory.wfFrom_write h (Nat.zero_le a)

theorem Memory.wf_writeBytes {m : Memory} (a : Nat) (bs : List Byte) (h : m.wf = true) :
    (m.writeBytes a bs).wf = true := by
  induction bs generalizing m a with
  | nil => exact h
  | cons b t ih => exact ih (a + 1) (Memory.wf_write a b h)

theorem Memory.wf_writeLanes {m : Memory} (a : Nat) (ube : BitVec 4) (w : Word) (h : m.wf = true) :
    (m.writeLanes a ube w).wf = true := by
  have put : ∀ (m : Memory) (j : Nat), m.wf = true →
      (if ube.getLsbD j then m.write (a + j) (lane w j) else m).wf = true := by
    intro m j h
    split
    · exact Memory.wf_write _ _ h
    · exact h
  exact put _ _ (put _ _ (put _ _ (put _ _ h)))

/-- Below the least address of a canonical memory nothing is listed. -/
theorem Memory.read_of_wfFrom {m : Memory} {lo b : Nat} (h : m.wfFrom lo = true) (hb : b < lo) :
    m.read b = Memory.unlisted := by
  induction m generalizing lo with
  | nil => rfl
  | cons c t ih =>
    obtain ⟨k, w⟩ := c
    simp only [Memory.wfFrom, Bool.and_eq_true, decide_eq_true_eq] at h
    unfold Memory.read
    rw [if_neg (by omega)]
    exact ih h.2 (by omega)

theorem Memory.read_write {m : Memory} {lo : Nat} (h : m.wfFrom lo = true) (a b : Nat) (v : Byte) :
    (m.write a v).read b = if b = a then v else m.read b := by
  induction m generalizing lo with
  | nil =>
    unfold Memory.write
    split
    · by_cases hb : b = a <;> simp_all [Memory.read]
    · by_cases hb : b = a
      · simp [Memory.read, hb]
      · simp [Memory.read, hb, Ne.symm hb]
  | cons c t ih =>
    obtain ⟨k, w⟩ := c
    simp only [Memory.wfFrom, Bool.and_eq_true, decide_eq_true_eq] at h
    unfold Memory.write
    split
    · rename_i hak
      split
      · by_cases hb : b = a
        · subst b
          have : Memory.read t a = Memory.unlisted := Memory.read_of_wfFrom h.2 (by omega)
          simp only [Memory.read, if_true]
          rw [if_neg (by omega), this]
          simp_all
        · simp [hb]
      · by_cases hb : b = a
        · simp [Memory.read, hb]
        · rw [if_neg hb, Memory.read, if_neg (Ne.symm hb)]
    · split
      · subst a
        split
        · by_cases hb : b = k
          · subst b
            rw [Memory.read_of_wfFrom h.2 (by omega)]
            simp_all
          · rw [if_neg hb, Memory.read, if_neg (Ne.symm hb)]
        · by_cases hb : b = k
          · simp [Memory.read, hb]
          · simp [Memory.read, hb, Ne.symm hb]
      · by_cases hk : k = b
        · subst hk
          rw [if_neg (by omega)]
          simp [Memory.read]
        · simp only [Memory.read, hk, if_false]
          exact ih h.2

theorem Memory.read_write_same {m : Memory} (h : m.wf = true) (a : Nat) (v : Byte) : (m.write a v).read a = v := by
  rw [Memory.read_write h, if_pos rfl]

theorem Memory.read_write_other {m : Memory} (h : m.wf = true) {a b : Nat} (v : Byte) (hb : b ≠ a) :
    (m.write a v).read b = m.read b := by
  rw [Memory.read_write h, if_neg hb]

/-- A byte outside the addresses written is unchanged. -/
theorem Memory.read_writeBytes_outside {m : Memory} (h : m.wf = true) {a x : Nat} (bs : List Byte)
    (hx : x < a ∨ a + bs.length ≤ x) : (m.writeBytes a bs).read x = m.read x := by
  induction bs generalizing m a with
  | nil => rfl
  | cons b t ih =>
    simp only [List.length_cons] at hx
    rw [Memory.writeBytes, ih (Memory.wf_write a b h) (by omega), Memory.read_write_other h b (by omega)]

/-- A byte written is read back where it was written. -/
theorem Memory.read_writeBytes_inside {m : Memory} (h : m.wf = true) {a i : Nat} {bs : List Byte} {b : Byte}
    (hb : bs[i]? = some b) : (m.writeBytes a bs).read (a + i) = b := by
  induction bs generalizing m a i with
  | nil => simp at hb
  | cons c t ih =>
    cases i with
    | zero =>
      simp only [List.getElem?_cons_zero, Option.some.injEq] at hb
      subst c
      rw [Memory.writeBytes, Memory.read_writeBytes_outside (Memory.wf_write a b h) t (by omega)]
      exact Memory.read_write_same h a b
    | succ i =>
      rw [Memory.writeBytes, show a + (i + 1) = a + 1 + i by omega]
      exact ih (Memory.wf_write a c h) (by simpa using hb)

theorem Memory.length_readBytes (m : Memory) (a n : Nat) : (m.readBytes a n).length = n := by
  induction n generalizing a with
  | zero => rfl
  | succ n ih => simp [Memory.readBytes, ih]

theorem Memory.getElem?_readBytes (m : Memory) (a : Nat) {n i : Nat} (hi : i < n) :
    (m.readBytes a n)[i]? = some (m.read (a + i)) := by
  induction n generalizing a i with
  | zero => omega
  | succ n ih =>
    cases i with
    | zero => simp [Memory.readBytes]
    | succ i =>
      simp only [Memory.readBytes, List.getElem?_cons_succ]
      rw [ih (a + 1) (by omega)]
      congr 2
      omega

end Sys2Proof.Machine
end

