-- ==== Sys2Proof/Laws/Outcome.lean ====
section
/-! SUPPORT. How a command's outcome unfolds: the claims left over, the end of an access, posts and answers as updates of
one field, the bursts on the J-port, the judging of a frame, and the bits of a transaction. -/

namespace Sys2Proof.Machine

open Sys2Proof.Safety

/-! ## Claims -/

theorem takeCommit_of_not_waiting {s : State} (h : s.transit.claims.commit = false) : takeCommit s = s := by
  simp [takeCommit, h]

theorem takeCut_of_not_waiting {s : State} (h : s.transit.claims.cut = none) : takeCut s = s := by
  simp [takeCut, h]

theorem takeStart_of_not_waiting {s : State} (h : s.transit.claims.start = none) : takeStart s = s := by
  simp [takeStart, h]

theorem takeAll_of_no_claim {s : State} (h : s.transit.claims = Claims.none) :
    takeStart (takeCut (takeCommit s)) = s := by
  rw [takeCommit_of_not_waiting (by simp [h, Claims.none]), takeCut_of_not_waiting (by simp [h, Claims.none]),
    takeStart_of_not_waiting (by simp [h, Claims.none])]

theorem boundary_of_no_claim {s : State} (h : s.transit.claims = Claims.none) : boundary s = s := by
  unfold boundary
  rw [takeAll_of_no_claim h, ite_self]

theorem settle_of_settled {s : State} (h : settled s) : settle s = s := by
  unfold settle
  rw [if_neg]
  rintro ⟨h1, h2⟩
  exact h2 (h (by simpa using h1))

/-! ## Outcomes -/

theorem quiet_of_live {s : State} (h : live s) (f : State → State) : quiet s f = .next (f s) := by
  simp [quiet, h.1, settle_of_settled h.2]

theorem act_of_live {s : State} (h : live s) (f : State → State) : act s f = .next (arbitrate (f s)) := by
  simp [act, quiet, h.1, settle_of_settled h.2]

theorem actOnClaims_of_live {s : State} (h : s.porn = false) (f : State → State) :
    actOnClaims s f = .next (arbitrate (f s)) := by
  simp [actOnClaims, h]

theorem live_of_access {s : State} {a : Access} (hp : s.porn = false) (ha : s.transit.access = some a) : live s :=
  ⟨hp, fun h => by simp [ha] at h⟩

theorem live_of_no_claim {s : State} (hp : s.porn = false) (h : s.transit.claims = Claims.none) : live s :=
  ⟨hp, fun _ => h⟩

/-! ## Updates of one field -/

/-- The notice list and mask after a post. -/
def postUnit (n : Notice) (u : NoticeUnit) : NoticeUnit :=
  if u.masked n then u else { u with list := postList u.list n }

theorem post_eq (n : Notice) (s : State) : post n s = { s with notices := postUnit n s.notices } := by
  unfold post postUnit State.setNotices
  split <;> rfl

theorem lowWater_eq (before : Nat) (s : State) : lowWater before s = { s with notices :=
    if s.journal.lowWater ≤ before ∧ s.free < s.journal.lowWater then postUnit (.journalLow s.free) s.notices
    else s.notices } := by
  unfold lowWater
  split
  · rw [post_eq]
  · rfl

/-- The link after an answer. -/
def answerLink (st : Status) (data : List Byte) (l : Link) : Link :=
  match l.slot with
  | .executing _ tag lost => { l with slot := .ready tag st data lost }
  | .empty => l
  | .ready _ _ _ _ => l

theorem answer_eq (st : Status) (data : List Byte) (s : State) :
    answer st data s = { s with link := answerLink st data s.link } := by
  unfold answer answerLink State.setLink
  cases s.link.slot <;> rfl

theorem withdrawD_eq (s : State) : withdrawD s =
    { s with dport.burst := if s.dport.burst = some .transit then none else s.dport.burst } := by
  unfold withdrawD freeD State.setDport
  split <;> rfl

theorem allocate_eq (s : State) : allocate s = lowWater s.free (slotTaken s) := rfl

theorem returnSlot_eq (s : State) : returnSlot s = slotBack s := rfl

/-- The burst on the port belongs to another claimant, or is marked as wanted no more. -/
theorem disownJ_eq (c : JClient) (s : State) : disownJ c s =
    (let burst := s.journal.jport.burst.map fun b => if b.client = c then { b with live := false } else b
     { s with journal.jport.burst := burst }) := by
  unfold disownJ State.setJournal
  generalize hb : s.journal.jport.burst = o
  have key : ∀ x, x = o → { s with journal.jport.burst := x } = s := by
    rintro x rfl
    rw [← hb]
  cases o with
  | none => exact (key _ rfl).symm
  | some b =>
    by_cases hc : b.client = c
    · simp [hc]
    · simp only [hc, if_false]
      exact (key _ (by simp [hc])).symm

/-! ## The access boundary -/

theorem answer_transit (st : Status) (data : List Byte) (s : State) : (answer st data s).transit = s.transit := by
  rw [answer_eq]

theorem allocate_transit (s : State) : (allocate s).transit = s.transit := by
  rw [allocate_eq, lowWater_eq]
  rfl

theorem requestHeader_start_transit {s : State} (h : s.epochs.engine ≠ .faulted) :
    (requestHeader .start s).transit = s.transit := by
  unfold requestHeader
  rw [if_neg h]
  cases s.journal.header.inFlight <;> rfl

theorem takeCommit_claims (s : State) : (takeCommit s).transit.claims = { s.transit.claims with commit := false } := by
  unfold takeCommit
  split
  · dsimp only
    split <;> rw [answer_transit] <;> rfl
  · rename_i h
    have h' : s.transit.claims.commit = false := by simpa using h
    rw [← h']

theorem takeCut_claims (s : State) : (takeCut s).transit.claims = { s.transit.claims with cut := none } := by
  unfold takeCut
  split
  · rename_i h
    rw [← h]
  · dsimp only
    split
    · unfold cut
      simp [beginMarker, setMarker, State.setJournal, State.setMaps, State.setEpochs, allocate_transit, setClaims,
        State.setTransit]
    · rfl

theorem takeStart_claims (s : State) : (takeStart s).transit.claims = { s.transit.claims with start := none } := by
  unfold takeStart
  split
  · rename_i h
    rw [← h]
  · dsimp only
    split
    · rw [requestHeader_start_transit (by simp [State.setEpochs])]
      rfl
    · rfl

/-- What the access boundary does is what the statements say of it. -/
theorem boundary_eq (s : State) : boundary s = claimTaken s := by
  unfold boundary claimTaken Claims.count
  rcases h : s.transit.claims with ⟨_ | _, _ | b, _ | k⟩
  · simpa using takeAll_of_no_claim h
  · simp only [Option.isSome_none, Option.isSome_some, Bool.false_eq_true, if_false, if_true]
    rw [takeCommit_of_not_waiting (by simp [h]), takeCut_of_not_waiting (by simp [h])]
    rfl
  · simp only [Option.isSome_none, Option.isSome_some, Bool.false_eq_true, if_false, if_true]
    rw [takeCommit_of_not_waiting (by simp [h]), takeStart_of_not_waiting (by simp [takeCut_claims, h])]
    rfl
  · rfl
  · simp only [Option.isSome_none, Bool.false_eq_true, if_false, if_true]
    have hc := takeCommit_claims s
    rw [h] at hc
    rw [takeCut_of_not_waiting (by simp [hc]), takeStart_of_not_waiting (by simp [hc])]
    rfl
  · rfl
  · rfl
  · rfl

theorem claimTaken_of_no_claim {s : State} (h : s.transit.claims = Claims.none) : claimTaken s = s := by
  unfold claimTaken
  rw [h]
  rfl

/-- COMMIT_TAKEN at the boundary: the commit, then a claim left alone. -/
theorem exec_commitTaken {s : State} (hp : s.porn = false) (ha : s.transit.access = none)
    (h : s.transit.claims.commit = true) :
    exec .commitTaken s = .next (arbitrate (claimTaken (takeCommit s))) := by
  show execCommitTaken s = _
  unfold execCommitTaken
  rw [actOnClaims_of_live hp, if_pos (by simp [atBoundary, ha, h]), boundary_eq]

/-- CUT_TAKEN at the boundary: the cut, then a claim left alone. -/
theorem exec_cutTaken {s : State} (hp : s.porn = false) (ha : s.transit.access = none)
    (h : s.transit.claims.cut.isSome = true) :
    exec .cutTaken s = .next (arbitrate (claimTaken (takeCut s))) := by
  show execCutTaken s = _
  unfold execCutTaken
  rw [actOnClaims_of_live hp, if_pos (by simp [atBoundary, ha, h]), boundary_eq]

/-- ROLLBACK_START at the boundary: the start, then a claim left alone. -/
theorem exec_rollbackStart {s : State} (hp : s.porn = false) (ha : s.transit.access = none)
    (h : s.transit.claims.start.isSome = true) :
    exec .rollbackStart s = .next (arbitrate (claimTaken (takeStart s))) := by
  show execRollbackStart s = _
  unfold execRollbackStart
  rw [actOnClaims_of_live hp, if_pos (by simp [atBoundary, ha, h]), boundary_eq]

/-! ## Failing requests -/

theorem failRequest_eq {r : HeaderRequest} {s : State} (hr : s.epochs.engine = .recovering → r ≠ .recover)
    (hw : s.epochs.walker.state = .stopped) :
    failRequest s r = { s with link.slot := releaseFailed [r] s.link.slot } := by
  have kept : r ≠ .release → releaseFailed [r] s.link.slot = s.link.slot := by
    intro h
    unfold releaseFailed
    cases s.link.slot <;> simp [h.symm]
  cases r with
  | release =>
    unfold failRequest releaseFailed executing
    simp only [answer_eq, answerLink]
    cases hs : s.link.slot with
    | empty => simp [← hs]
    | ready a b c d => simp [← hs]
    | executing c t l =>
      by_cases hc : c = 11#8
      · simp [hc]
      · simp [hc, ← hs]
  | recover =>
    have he : s.epochs.engine ≠ .recovering := fun e => hr e rfl
    rw [kept nofun]
    simp [failRequest, he]
  | start =>
    rw [kept nofun]
    simp [failRequest, hw]
  | checkpoint a b c d => rw [kept nofun]; rfl
  | brk a => rw [kept nofun]; rfl
  | startAborted => rw [kept nofun]; rfl
  | settle => rw [kept nofun]; rfl

theorem releaseFailed_append (rs more : List HeaderRequest) (x : Slot) :
    releaseFailed more (releaseFailed rs x) = releaseFailed (rs ++ more) x := by
  cases x with
  | empty => rfl
  | ready a b c d => rfl
  | executing c t l =>
    by_cases hc : c = 11#8 <;> by_cases hr : HeaderRequest.release ∈ rs <;> simp [releaseFailed, hc, hr]

/-- Outside RECOVERING and ROLLING_BACK the failing of requests shows in the response slot alone. -/
theorem failRequests_eq (rs : List HeaderRequest) {s : State}
    (hr : s.epochs.engine = .recovering → HeaderRequest.recover ∉ rs) (hw : s.epochs.walker.state = .stopped) :
    failRequests rs s = { s with link.slot := releaseFailed rs s.link.slot } := by
  induction rs generalizing s with
  | nil =>
    show s = _
    unfold releaseFailed
    cases h : s.link.slot <;> simp [← h]
  | cons r rs ih =>
    show failRequests rs (failRequest s r) = _
    rw [failRequest_eq (fun e h => hr e (h ▸ List.mem_cons_self)) hw,
      ih (by exact fun e m => hr e (List.mem_cons_of_mem _ m)) (by exact hw)]
    simp only [releaseFailed_append, List.singleton_append]

/-- Entering FAULTED is what the statements say of it. -/
theorem enterFaulted_eq (s : State) : enterFaulted s = faulted s := by
  unfold enterFaulted faulted
  dsimp only
  rw [disownJ_eq, failRequests_eq]
  · rfl
  · exact nofun
  · rfl

/-! ## The completion of a header write -/

theorem reevaluate_eq (s : State) : reevaluate s = markReevaluated s := by
  unfold reevaluate markReevaluated claimed
  simp only [boundary_eq]
  rfl

theorem retestSpace_eq (s : State) : retestSpace s = spaceRetested s := by
  unfold retestSpace spaceRetested
  cases s.transit.access with
  | none => rfl
  | some a =>
    dsimp only
    split
    · unfold startCapture
      rw [allocate_eq, lowWater_eq, lowWater_eq]
      rfl
    · rfl

theorem releaseAnswered_eq (s : State) :
    (if executing 0x0B s then answer .ok [] s else s) = { s with link.slot := releaseAnswered s.link.slot } := by
  unfold executing releaseAnswered
  simp only [answer_eq, answerLink]
  cases hs : s.link.slot with
  | empty => simp [← hs]
  | ready a b c d => simp [← hs]
  | executing c t l =>
    by_cases hc : c = 11#8
    · simp [hc]
    · simp [hc, ← hs]

theorem find_active_ne_none (m : CaptureMaps) :
    m.find .active ≠ none ↔ m.m0.state = .active ∨ m.m1.state = .active := by
  unfold CaptureMaps.find
  by_cases h0 : m.m0.state = .active <;> by_cases h1 : m.m1.state = .active <;> simp [h0, h1]

/-- What a request reported done does is what the statements say of it. -/
theorem doneRequest_eq (s : State) (r : HeaderRequest) : doneRequest s r = requestDone r s := by
  cases r with
  | checkpoint e c slot merged =>
    unfold doneRequest checkpointDone requestDone
    simp only [reevaluate_eq]
    rfl
  | release =>
    unfold doneRequest releaseDone requestDone
    simp only [reevaluate_eq, retestSpace_eq, releaseAnswered_eq]
    rfl
  | brk e =>
    unfold doneRequest breakRecorded requestDone
    dsimp only
    split
    · have same (f : Access → Access) (h : s.transit.access.map f = s.transit.access) : s.transit =
          { s.transit with access := s.transit.access.map f } := by
        rw [h]
      dsimp only [State.setEpochs]
      cases ha : s.transit.access with
      | none =>
        dsimp only
        congr 1
        rw [← ha]
        exact same _ (by rw [ha]; rfl)
      | some a =>
        by_cases hs : a.stage = .waitHeader
        · simp [hs, setAccess, State.setTransit]
        · simp only [hs, if_false]
          congr 1
          rw [← ha]
          exact same _ (by simp [ha, hs])
    · rfl
  | start => rfl
  | startAborted => rfl
  | settle =>
    unfold doneRequest finishSettling requestDone
    dsimp only [State.setEpochs]
    simp only [find_active_ne_none, true_and]
    rfl
  | recover => rfl

theorem otherCopy_eq (c : Option Copy) : Copy.other c = if c = some .a then .b else .a := by
  cases c with
  | none => rfl
  | some c => cases c <;> rfl

theorem beginDirty_eq (s : State) : beginDirty s = nextCopyBegun s := by
  unfold beginDirty nextCopyBegun
  dsimp only
  split
  · unfold beginRequested beginHeader
    rw [otherCopy_eq]
    rfl
  · rfl

/-- The completion of a requested header copy, whatever requests it carries. -/
theorem headerDone_requested {j : HeaderJob} (s : State) (h : j.kind = .requested) :
    headerDone j s =
      nextCopyBegun (j.requests.foldl (fun x r => requestDone r x) { s with journal.header.inFlight := none }) := by
  unfold headerDone
  rw [h]
  dsimp only
  rw [beginDirty_eq]
  congr 1
  have step : doneRequest = fun x r => requestDone r x := by
    funext x r
    exact doneRequest_eq x r
  rw [step]
  rfl

/-! ## The end of an access -/

theorem dropAccess_eq (s : State) : dropAccess s = accessOver s.transit.answers s := by
  unfold dropAccess
  rw [withdrawD_eq]
  rfl

theorem endAccess_of_no_claim {s : State} (h : s.transit.claims = Claims.none) :
    endAccess false s = accessOver s.transit.answers s := by
  unfold endAccess
  simp only [Bool.false_eq_true, if_false]
  rw [dropAccess_eq, boundary_of_no_claim]
  exact h

theorem answerErr_of_no_claim {s : State} (h : s.transit.claims = Claims.none) (write : Bool) :
    answerErr write s = accessOver (s.transit.answers ++ [errBeat write]) s := by
  unfold answerErr
  rw [endAccess_of_no_claim (by exact h)]
  rfl

theorem answerErr_eq (write : Bool) (s : State) :
    answerErr write s = claimTaken (accessOver (s.transit.answers ++ [errBeat write]) s) := by
  unfold answerErr endAccess
  simp only [Bool.false_eq_true, if_false]
  rw [boundary_eq, dropAccess_eq]
  rfl

theorem refuseAccess_eq (a : Access) (e : Engine) (s : State) : refuseAccess a e s =
    claimTaken (post (.refusedAccess (4 * a.ua.toNat) a.write e)
      (accessOver (s.transit.answers ++ [errBeat a.write]) s)) := by
  unfold refuseAccess
  rw [answerErr_eq, post_eq, post_eq]
  rfl

theorem refuseAccess_of_no_claim {s : State} (h : s.transit.claims = Claims.none) (a : Access) (e : Engine) :
    refuseAccess a e s =
      post (.refusedAccess (4 * a.ua.toNat) a.write e) (accessOver (s.transit.answers ++ [errBeat a.write]) s) := by
  unfold refuseAccess
  rw [answerErr_of_no_claim (by rw [post_eq]; exact h), post_eq, post_eq]
  rfl

theorem carryBeat_eq (a : Access) (ube : BitVec 4) (data : Word) (s : State) :
    carryBeat a ube data s = Safety.beatCarried a ube data s := by
  unfold carryBeat Safety.beatCarried
  by_cases h : a.write = true <;> simp [h] <;> rfl

theorem forwarding_of_onD {s : State} {a : Access} (h : s.transit.access = some a) (hs : a.stage = .forward)
    (hb : s.dport.burst = some .transit) : forwarding s = some a := by
  unfold forwarding
  rw [h]
  exact if_pos ⟨hs, hb⟩

theorem readingOld_of_onD {s : State} {a : Access} (h : s.transit.access = some a) (hs : a.stage = .readOld)
    (hb : s.dport.burst = some .transit) : readingOld s = some a := by
  unfold readingOld
  rw [h]
  exact if_pos ⟨hs, hb⟩

/-! ## Arrivals -/

theorem exec_accessArrival {s : State} (h : arrivalReady s) (ua : BitVec 24) (write burst priv : Bool) :
    exec (.accessArrival ua write burst priv) s = .next (arbitrate (arrive ua write burst priv s)) := by
  obtain ⟨h1, h2, h3, h4⟩ := h
  show execAccessArrival ua write burst priv s = _
  unfold execAccessArrival
  rw [act_of_live (live_of_no_claim h1 h4)]
  simp [h2, h3]

/-- A capture-governed write in JOURNALING comes to the tests of R31. -/
theorem exec_accessArrival_governed {s : State} {ua : BitVec 24} {burst priv : Bool} (h : arrivalReady s)
    (hm : malformed burst ua = false) (he : s.epochs.engine = .journaling)
    (ha : (matchAccess s.regions.active ua true priv).action ∈ [.capture, .captureMark]) :
    exec (.accessArrival ua true burst priv) s =
      .next (arbitrate (captureTests (sampleAccess s ua true burst priv)
        { s with transit.access := some (sampleAccess s ua true burst priv), transit.answers := [] })) := by
  rw [exec_accessArrival h]
  congr 2
  simp at ha
  rcases ha with h | h <;>
    simp [arrive, dispatch, sampleAccess, hm, State.setTransit, h, Engine.refuses, he]

/-! ## Bursts on the J-port -/

theorem jOwned_of_write {s : State} {c : JClient} {addr : Nat} {data : List Byte} (h : writesJ s c addr data) :
    jOwned c s = some ⟨c, addr, some data, true⟩ := by
  unfold jOwned
  rw [h.2]
  exact if_pos rfl

theorem jOwned_of_read {s : State} {c : JClient} {addr : Nat} (h : readsJ s c addr) :
    jOwned c s = some ⟨c, addr, none, true⟩ := by
  unfold jOwned
  rw [h.2]
  exact if_pos rfl

theorem endJ_of_write (c : JClient) (addr : Nat) (data : List Byte) (l : Bool) (s : State) :
    endJ ⟨c, addr, some data, l⟩ s = landed addr (data.take 16) s := rfl

theorem endJ_of_read (c : JClient) (addr : Nat) (l : Bool) (s : State) : endJ ⟨c, addr, none, l⟩ s = jFree s := rfl

theorem failJ_of_write (c : JClient) (addr : Nat) (data : List Byte) (l : Bool) (beats : Fin 4) (s : State) :
    failJ ⟨c, addr, some data, l⟩ beats s = landed addr (data.take (4 * beats.val)) s := rfl

theorem freeJ_eq (s : State) : freeJ s = jFree s := rfl

/-! ## Frames -/

theorem deliverBy_of_free {c : Nat} {l : Link} (h : slotFreeAt c l) :
    (deliverBy c l).slot = .empty ∧ (deliverBy c l).mso = (if l.mso.length ≤ c then [] else l.mso) ∧
      (deliverBy c l).lostHere = l.lostHere := by
  unfold deliverBy deliver
  rcases h with h | ⟨h1, h2, h3⟩
  · by_cases hc : l.mso.length ≤ c <;> by_cases hm : l.mso = [] <;> simp [hc, hm, h]
  · simp [h1, h2, h3]

theorem atFrameEnd_of_free {c : Nat} {l : Link} (h : slotFreeAt c l) (x : Slot) :
    { atFrameEnd c l with slot := x } = linkAfter c x l := by
  obtain ⟨-, e2, e3⟩ := deliverBy_of_free h
  unfold atFrameEnd linkAfter
  simp only [e2, e3]

/-- A frame that passes every test of R161 is handed to its owner with the slot EXECUTING. -/
theorem judgeFrame_of_executes {code : Byte} {f : Frame} {s : State} (owner : State → State)
    (h : frameExecutes code f s) : judgeFrame code f owner s = owner (holding code f s) := by
  obtain ⟨⟨-, h1, h2, h3, h4⟩, h5⟩ := h
  unfold judgeFrame
  simp only [frameCanEnd, h1, h2, decide_true, Bool.and_self, if_true, frameCheckOk, h3, BEq.rfl, Bool.not_true,
    Bool.false_eq_true, if_false, h5, ne_eq, not_true_eq_false]
  have e4 : (atFrameEnd (5 + f.params.length) s.link).slot = .empty := (deliverBy_of_free h4).1
  rw [if_neg (by simp [e4]), atFrameEnd_of_free h4]
  rfl

theorem answer_holding (code : Byte) (f : Frame) (st : Status) (data : List Byte) (s : State) :
    answer st data (holding code f s) = answered f st data s := rfl

/-! ## Transactions -/

theorem answer_framer (st : Status) (data : List Byte) (s : State) :
    (answer st data s).link.framer = s.link.framer := by
  rw [answer_eq]
  unfold answerLink
  cases s.link.slot <;> rfl

theorem takeCommit_framer (s : State) : (takeCommit s).link.framer = s.link.framer := by
  unfold takeCommit
  split
  · dsimp only
    split <;> rw [answer_framer] <;> rfl
  · rfl

theorem takeCut_framer (s : State) : (takeCut s).link.framer = s.link.framer := by
  unfold takeCut
  split
  · rfl
  · dsimp only
    split
    · unfold cut
      simp only [allocate_eq, lowWater_eq]
      rfl
    · rfl

theorem takeStart_framer (s : State) : (takeStart s).link.framer = s.link.framer := by
  unfold takeStart
  split
  · rfl
  · dsimp only
    split
    · unfold requestHeader
      rw [if_neg (by simp [State.setEpochs])]
      split <;> rfl
    · rfl

theorem takeLeftover_framer (s : State) : (takeLeftover s).link.framer = s.link.framer := by
  unfold takeLeftover
  split
  · split <;> simp only [takeStart_framer, takeCut_framer, takeCommit_framer] <;> rfl
  · simp only [takeStart_framer, takeCut_framer, takeCommit_framer]

theorem arbitrate_link (s : State) : (arbitrate s).link = s.link := by
  unfold arbitrate
  have d (x : State) : (grantD x).link = x.link := by
    unfold grantD
    split
    · rfl
    · split <;> rfl
  have j (x : State) : (grantJ x).link = x.link := by
    unfold grantJ
    split
    · rfl
    · split <;> rfl
  simp [d, j]

/-- The claims left over leave the framer as it is. -/
theorem settle_framer (s : State) : (settle s).link.framer = s.link.framer := by
  unfold settle
  split
  · rw [arbitrate_link, takeLeftover_framer]
  · rfl

/-- What MSO carries from the start of a transaction. -/
theorem exec_transactionStart_mso {s t : State} (hp : s.porn = false) (hf : s.link.framer = .idle)
    (h : exec .transactionStart s = .next t) : t.link.mso = msoAtStart (settle s).link.slot := by
  have key : execTransactionStart s = .next t := h
  unfold execTransactionStart quiet at key
  simp only [hp, Bool.false_eq_true, if_false, settle_framer, hf, Host.Outcome.next.injEq] at key
  rw [← key]
  rfl

/-! ## The bits of a transaction -/

theorem byteOfBits_of_byteBits (b : Byte) :
    byteOfBits (b.getLsbD 7) (b.getLsbD 6) (b.getLsbD 5) (b.getLsbD 4) (b.getLsbD 3) (b.getLsbD 2) (b.getLsbD 1)
      (b.getLsbD 0) = b := by
  revert b
  decide +kernel

theorem assembleBytes_of_short {part : List Bool} (h : part.length < 8) : assembleBytes part = [] := by
  unfold assembleBytes
  split
  · simp only [List.length_cons] at h
    omega
  · rfl

/-- The bits of whole bytes, and of a byte cut short after them, are those bytes. -/
theorem assembleBytes_of_bits (bytes : List Byte) {part : List Bool} (h : part.length < 8) :
    assembleBytes (bytes.flatMap byteBits ++ part) = bytes := by
  induction bytes with
  | nil => exact assembleBytes_of_short h
  | cons b bytes ih =>
    simp only [List.flatMap_cons, byteBits, List.cons_append, List.nil_append]
    rw [assembleBytes, byteOfBits_of_byteBits]
    exact congrArg (b :: ·) ih

end Sys2Proof.Machine
end

