-- ==== Sys2Proof/Tests/Slice0.lean ====
section
/-! SUPPORT. Tests by evaluation: ill-formed commands, the manual's worked examples, and for each statement a state and
operands that meet its hypotheses. -/

-- One theorem at a time: each one checked beside the others has a thread and a stack of its own.
set_option Elab.async false

namespace Sys2Proof.Tests

open Sys2Proof Sys2Proof.Machine Sys2Proof.Safety

/-! ## Ill-formed commands -/

theorem test_lengthOverrun_needs_more_than_32 : (Instr.lengthOverrun 1 0 32).wellFormed = false := by decide
theorem test_lengthOverrun_33 : (Instr.lengthOverrun 1 0 33).wellFormed = true := by decide
theorem test_unknown_code_is_no_command_code : (Instr.unknownCommandFrame 16 ⟨0, [], 0⟩).wellFormed = false := by decide
theorem test_unknown_code_17 : (Instr.unknownCommandFrame 17 ⟨0, [], 0⟩).wellFormed = true := by decide
theorem test_unknown_frame_at_most_32 : (Instr.unknownCommandFrame 17 ⟨0, zeros 33, 0⟩).wellFormed = false := by decide
theorem test_frame_at_most_32 :
    [Instr.identify, .getStatus, .writeRegion, .readRegion, .commitRegions, .revertStaged, .setPolicy, .format, .recover,
      .checkpoint, .release, .rollback, .abort, .readEpochs, .readNotice, .readSlot].all
      (fun c => !(c ⟨0, zeros 33, 0⟩).wellFormed && (c ⟨0, zeros 32, 0⟩).wellFormed) = true := by decide

/-! ## The manual's worked examples -/

def digits : List Byte := [0x31, 0x32, 0x33, 0x34, 0x35, 0x36, 0x37, 0x38, 0x39]

theorem test_crc16_check_value : crc16 digits = 0x29B1 := by decide +kernel
theorem test_crc8_check_value : crc8 digits = 0xF4 := by decide +kernel
theorem test_revert_staged_frame : frameBytes 0x06 ⟨0x25, [], 0x92⟩ = [0xC3, 0x06, 0x25, 0x00, 0x92] := by decide
theorem test_revert_staged_decodes :
    decodeFrame [0xC3, 0x06, 0x25, 0x00, 0x92] = some (.revertStaged ⟨0x25, [], 0x92⟩) := by decide
theorem test_revert_staged_check : frameCheckOk 0x06 ⟨0x25, [], 0x92⟩ = true := by decide +kernel
theorem test_response_frame : responseFrame 0x25 .ok [] false = [0x3C, 0x25, 0x00, 0x00, 0x00, 0x80] := by decide +kernel
theorem test_frame_after_its_end_ignored :
    decodeFrame [0xC3, 0x06, 0x25, 0x00, 0x92, 0xC3, 0x06] = some (.revertStaged ⟨0x25, [], 0x92⟩) := by decide
theorem test_wrong_sync_is_no_frame : decodeFrame [0xC4, 0x06, 0x25, 0x00, 0x92] = none := by decide
theorem test_checkpoint_notice : (NoticeEntry.mk 1 (.ckptDone 47 .mark 601 2)).bytes =
    [0x01, 0x01, 0x00, 0x00, 0x00, 0x2F, 0x03, 0x00, 0x00, 0x02, 0x59, 0x02] := by decide
theorem test_slot_addresses : slotAddr 100 = 0x2680 ∧ slotAddr 103 = 0x27A0 ∧ slotAddr 601 = 0xE260 := by decide
theorem test_granule_index : Window.index ⟨0x1000000, 4⟩ 0x1A3F2C8 = 0x28FCB := by decide

/-- UA[25:2] of a byte address. -/
def ua (a : Nat) : BitVec 24 := BitVec.ofNat 24 (a / 4)

/-- The active table of the merging example. -/
def merging : Vector Region 12 :=
  #v[⟨true, 0x0400, 0x03FF, .either, .capture⟩, ⟨true, 0x0500, 0x000F, .either, .exempt⟩,
    ⟨true, 0x0600, 0x0000, .normal, .guard⟩, ⟨true, 0x07FF, 0x0000, .either, .mark⟩, .powerOn, .powerOn, .powerOn,
    .powerOn, .powerOn, .powerOn, .powerOn, .powerOn]

theorem test_merge_exempt : matchAccess merging (ua 0x140020) true false = ⟨.pass, none⟩ := by decide
theorem test_merge_guard : matchAccess merging (ua 0x180010) true false = ⟨.guard, some 2⟩ := by decide
theorem test_merge_privileged : matchAccess merging (ua 0x180010) true true = ⟨.capture, none⟩ := by decide
theorem test_merge_read : matchAccess merging (ua 0x180010) false false = ⟨.capture, none⟩ := by decide
theorem test_merge_capture_and_mark : matchAccess merging (ua 0x1FFF40) true false = ⟨.captureMark, none⟩ := by decide
theorem test_merge_no_region : matchAccess merging (ua 0x300000) true false = ⟨.pass, none⟩ := by decide
theorem test_merge_mark_alone :
    matchAccess (merging.set 0 .powerOn) (ua 0x1FFF40) true false = ⟨.mark, none⟩ := by decide

/-- Region shapes: rows two and three of the example. -/
theorem test_region_shapes :
    Region.hits ⟨true, 0x0800, 0x1003, .either, .capture⟩ (ua 0x600FFC) false = true ∧
    Region.hits ⟨true, 0x0800, 0x1003, .either, .capture⟩ (ua 0x601000) false = false ∧
    Region.hits ⟨true, 0x0403, 0x0003, .either, .capture⟩ (ua 0x100000) false = true ∧
    Region.hits ⟨true, 0x0403, 0x0003, .either, .capture⟩ (ua 0x101000) false = false := by decide

/-- The window of the examples. -/
def window1 : Window := ⟨0x100000, 0⟩

/-- The staged table of the validation example. -/
def outside : Vector Region 12 :=
  (merging.set 5 ⟨true, 0x0800, 0, .either, .capture⟩).set 6 ⟨true, 0x0400, 0x0400, .either, .capture⟩

theorem test_validation : firstOutside outside window1 = some 5 ∧
    firstOutside (outside.set 5 .powerOn) window1 = some 6 ∧ firstOutside merging window1 = none := by decide

/-! ## The state of section 2.12 -/

def geometry1 : Geometry := ⟨7, 1024, window1⟩

/-- JOURNALING, epochs 6 and 7, slots 40 to 99 occupied (section 2.12); a transaction has begun on the link. -/
def working : State :=
  { State.reset with
    regions := ⟨merging, merging⟩
    maps := ⟨⟨.active, []⟩, ⟨.clean, []⟩, some window1, none, none⟩
    journal := { Journal.powerOn with
      geometry := some geometry1, head := 40, tail := 100, occupied := 60, sequence := 5301
      header := ⟨4, some .b, false, [], none⟩ }
    epochs := { EpochController.powerOn with
      engine := .journaling, table := [⟨6, 40, 5241, 30, .manual⟩, ⟨7, 71, 5272, 28, .manual⟩], lastUsed := 7 }
    link := ⟨.first, .empty, [], 0, false⟩ }

/-- The state in another engine state. -/
def inEngine (e : Engine) (s : State) : State := { s with epochs.engine := e }

/-- The outcome is a next state with this property. -/
def leads (o : Host.Outcome State Fault Refusal) (p : State → Bool) : Bool :=
  match o with
  | .next t => p t
  | .fault _ => false
  | .refused _ => false

theorem test_captured_write_takes_slot_100 :
    leads (exec (.accessArrival (ua 0x108040) true true false) working) (fun t =>
      decide (t.transit.access.map (fun a => a.slot) = some (some ⟨100, 5301⟩)) && decide (t.journal.tail = 101) &&
      decide (t.journal.occupied = 61) && decide (t.dport.burst = some .transit)) = true := by decide

theorem test_malformed_burst :
    leads (exec (.accessArrival (ua 0x108044) true true false) working) (fun t =>
      decide (t.transit.answers = [.err none]) && decide (t.transit.access = none) && decide (t.notices.list = [])) =
      true := by decide

/-- A malformed read: UD is zero beside UERR. -/
theorem test_malformed_read :
    leads (exec (.accessArrival (ua 0x108044) false true false) working) (fun t =>
      decide (t.transit.answers = [.err (some 0)])) = true := by decide

theorem test_guarded_write :
    leads (exec (.accessArrival (ua 0x180010) true true false) working) (fun t =>
      decide (t.notices.list = [⟨1, .guardHit 0x180010 false 2⟩])) = true := by decide

/-- A write to 108040h at a transit state of its capture. -/
def captureAt (stage : Stage) (slot : Option SlotGrant) : Access :=
  { ua := ua 0x108040, write := true, burst := true, priv := false, result := ⟨.capture, none⟩, engineAt := .journaling
    stage := stage, acked := 0, slot := slot, oldBursts := 0, recBursts := 0, record := [], cut := .no }

/-- A pass write on the D-port, before its last beat. -/
def passing : Access :=
  { captureAt .forward none with ua := ua 0x300000, result := ⟨.pass, none⟩ }

/-- A capture-and-mark write forwarded on the D-port, single beat. -/
def marking : Access :=
  { captureAt .forward none with ua := ua 0x1FFF40, burst := false, result := ⟨.captureMark, none⟩ }

def withAccess (a : Access) (s : State) : State := { s with transit.access := some a }
def onPort (s : State) : State := { s with dport.burst := some .transit }
def withJ (b : JBurst) (s : State) : State := { s with journal.jport.burst := some b }
def withClaims (c : Claims) (s : State) : State := { s with transit.claims := c }
def withSlot (x : Slot) (s : State) : State := { s with link.slot := x }

theorem test_last_beat_ends_the_access :
    leads (exec (.forwardBeatAck 0xF 0x04030201) (onPort (withAccess { passing with acked := 3 } working))) (fun t =>
      decide (t.transit.access = none) && decide (t.dmem.readBytes 0x30000C 4 = [1, 2, 3, 4])) = true := by decide

theorem test_mark_request_cuts :
    leads (exec (.forwardBeatAck 0x1 5) (onPort (withAccess marking working))) (fun t =>
      decide (t.currentEpoch = 8) && decide (t.journal.tail = 101) && t.epochs.ckptInFlight &&
      decide (t.maps.m1.state = .active) && decide (t.maps.m0.state = .sweeping)) = true := by decide

/-! ## A state and operands that meet the hypotheses of each statement -/

/-- The frame of a command with the tag 25h and a good CRC-8. -/
def frameOf (code : Byte) (params : List Byte) : Frame :=
  ⟨0x25, params, crc8 (frameChecked code ⟨0x25, params, 0⟩)⟩

def grant1 : SlotGrant := ⟨100, 5301⟩
def burst1 (c : JClient) : JBurst := ⟨c, slotAddr 100, some (zeros 16), true⟩
def reading (c : JClient) : JBurst := ⟨c, slotAddr 99, none, true⟩
def refusing : List Engine := [.formatting, .recovering, .rollingBack, .settling, .held, .faulted]
def stage1 (x : Stage) : State := withAccess (captureAt x (some grant1)) working

theorem test_hyp_StepRunsFrontCommand :
    ({ working with pending := [.timeBaseTick] } : State).pending = .timeBaseTick :: [] ∧
    State.reset.pending = [] := by decide

theorem test_hyp_ResetLines : (working.setPorn true).porn = true := by decide

theorem test_hyp_SystemResetAbandons :
    (working.porn = false ∧ working.transit.access = none) ∧
    (∀ x ∈ [Stage.forward, .waitSpace, .waitHeader, .answer, .readOld, .writeRecord, .waitMarker],
      carries (stage1 x) (captureAt x (some grant1)) ∧ (captureAt x (some grant1)).slot.isSome) ∧
    (stage1 .writeRecord).journal.jport.burst = none ∧
    (withJ (burst1 .record) (stage1 .writeRecord)).journal.jport.burst = some (burst1 .record) ∧
    carries (withAccess (captureAt .waitMarker none) working) (captureAt .waitMarker none) := by decide

/-- Each list of claims that can be left over. -/
theorem test_hyp_LeftoverClaims :
    (∀ c ∈ [(⟨true, none, none⟩ : Claims), ⟨false, some .mark, none⟩, ⟨false, none, some 6⟩, ⟨true, some .checkpoint, none⟩,
        ⟨true, none, some 6⟩],
      working.porn = false ∧ (withClaims c working).transit.access = none ∧
        (withClaims c working).transit.claims ≠ Claims.none) ∧
    live (working.setSrstn true) ∧ live (stage1 .forward) ∧ (stage1 .forward).transit.access.isSome := by decide

/-- Each claim that waits alone, and an access at each of its ends. -/
theorem test_hyp_BoundaryTakesTheClaim :
    ∀ c ∈ [(⟨true, none, none⟩ : Claims), ⟨false, some .mark, none⟩, ⟨false, none, some 6⟩],
      let at' (a : Access) (s : State) : Prop :=
        s.porn = false ∧ s.transit.access = some a ∧ s.transit.claims = c
      ((withClaims c working).transit.access = none ∧ (withClaims c working).transit.claims = c) ∧
      (∀ a ∈ [passing, { passing with acked := 3 }, { passing with cut := .afterBeat }],
        at' a (withClaims c (onPort (withAccess a working))) ∧ a.stage = .forward) ∧
      at' (captureAt .readOld (some grant1)) (withClaims c (onPort (stage1 .readOld))) ∧
      (at' (captureAt .writeRecord (some grant1)) (withClaims c (withJ (burst1 .record) (stage1 .writeRecord))) ∧
        burst1 .record = ⟨.record, slotAddr 100, some (zeros 16), true⟩) ∧
      ∀ x ∈ [Stage.forward, .waitSpace, .waitHeader, .answer, .readOld, .writeRecord, .waitMarker],
        ∀ g ∈ [some grant1, none], at' (captureAt x g) (withClaims c (withAccess (captureAt x g) working)) := by decide

/-- GUARD, CAPTURE alone, CAPTURE with MARK, CAPTURE with EXEMPT, MARK alone, no region. -/
theorem test_hyp_EffectiveAction :
    let has (tab : Vector Region 12) (a : Nat) (p : Policy) : Prop :=
      ∃ i : Fin 12, tab[i].policy = p ∧ tab[i].hits (ua a) false = true
    (has merging 0x180010 .guard ∧ has merging 0x180010 .capture) ∧
    (¬ has merging 0x1FFF40 .guard ∧ has merging 0x1FFF40 .capture ∧ ¬ has merging 0x1FFF40 .exempt ∧
      has merging 0x1FFF40 .mark) ∧
    (has merging 0x108040 .capture ∧ ¬ has merging 0x108040 .exempt ∧ ¬ has merging 0x108040 .mark) ∧
    (has merging 0x140020 .capture ∧ has merging 0x140020 .exempt ∧ ¬ has merging 0x140020 .mark) ∧
    has (merging.set 0 .powerOn) 0x1FFF40 .mark ∧ ¬ has merging 0x300000 .mark := by decide

theorem test_hyp_ContainmentKeepsAccessesInside :
    merging[0].enabled = true ∧ merging[0].policy = .capture ∧ window1.aligned = true ∧
    merging[0].contained window1 = true ∧ merging[0].contained ⟨0x200000, 0⟩ = false ∧
    merging[1].policy ≠ .capture ∧ merging[0].hits (ua 0x100000) false = true ∧
    merging[0].hits (ua 0x1FFFFC) false = true := by decide

/-- The last region, and each field just out of its range. -/
theorem test_hyp_RegionEntries :
    let whole := [BitVec.ofNat 8 11, Bool.code true] ++ be16 0x0800 ++ be16 0x1003 ++
      [RegionClass.either.code, Policy.mark.code]
    frameExecutes 0x03 (frameOf 0x03 whole) working ∧
    (∀ p ∈ [whole.set 0 12, whole.set 1 2, whole.set 6 3, whole.set 7 4],
      frameExecutes 0x03 (frameOf 0x03 p) working ∧ (12 ≤ (byteAt p 0).toNat ∨ 2 ≤ (byteAt p 1).toNat ∨
        3 ≤ (byteAt p 6).toNat ∨ 4 ≤ (byteAt p 7).toNat)) ∧
    frameExecutes 0x04 (frameOf 0x04 [11]) working ∧ frameExecutes 0x04 (frameOf 0x04 [12]) working := by
  decide +kernel

/-- Commands without parameters: REVERT_STAGED, COMMIT_REGIONS, RECOVER, CHECKPOINT, ABORT, IDENTIFY, GET_STATUS,
READ_EPOCHS, READ_NOTICE; with a response just gone out, and on an empty slot. -/
theorem test_hyp_frames :
    ∀ n ∈ [0x06, 0x05, 0x09, 0x0A, 0x0D, 0x01, 0x02, 0x0E, 0x0F], let c : Byte := BitVec.ofNat 8 n
      frameExecutes c (frameOf c []) working ∧
      frameExecutes c (frameOf c []) { working with link := ⟨.first, .ready 1 .ok [] false, zeros 5, 5, false⟩ } := by
  decide +kernel

def checkpointing : State := { working with epochs.ckptInFlight := true }
def badTable : State := { working with regions := ⟨outside, merging⟩ }

theorem test_hyp_CommitRegions :
    (∀ e ∈ [Engine.formatting, .recovering, .rollingBack, .settling, .held], frameExecutes 0x05 (frameOf 0x05 []) (inEngine e working)) ∧
    (frameExecutes 0x05 (frameOf 0x05 []) badTable ∧ badTable.journal.geometry = some geometry1 ∧
      firstOutside badTable.regions.staged geometry1.window = some 5) ∧
    (frameExecutes 0x05 (frameOf 0x05 []) (inEngine .offline working) ∧ frameExecutes 0x05 (frameOf 0x05 []) working ∧
      firstOutside working.regions.staged geometry1.window = none ∧ working.transit.access = none ∧
      working.transit.claims.cut = none ∧ working.transit.claims.start = none) ∧
    (frameExecutes 0x05 (frameOf 0x05 []) (stage1 .forward) ∧ (stage1 .forward).transit.access.isSome) ∧
    (∀ x ∈ [(⟨true, none, none⟩ : Claims), ⟨true, some .mark, none⟩, ⟨true, none, some 6⟩, ⟨true, some .mark, some 6⟩],
      ∀ e ∈ [Engine.journaling, .held],
      let s := withSlot (.executing 5 1 false) (withClaims x (inEngine e checkpointing))
      s.link.slot = .executing 5 1 false ∧ s.transit.access = none ∧ s.transit.claims = x ∧ s.epochs.engine = e) ∧
    (withSlot (.executing 5 1 false) working).transit.claims.commit = false :=
  ⟨by decide +kernel, by decide +kernel, by decide +kernel, by decide +kernel, by decide +kernel, by decide⟩

/-- A malformed burst, a guarded write, and a captured write in each engine state that refuses it. -/
theorem test_hyp_ArrivalAnsweredWithError :
    (arrivalReady working ∧ (ua 0x108044).toNat % 4 ≠ 0) ∧
    (malformed true (ua 0x180010) = false ∧
      matchAccess working.regions.active (ua 0x180010) true false = ⟨.guard, some 2⟩) ∧
    (∀ e ∈ refusing, arrivalReady (inEngine e working)) ∧ malformed true (ua 0x108040) = false ∧
    (matchAccess working.regions.active (ua 0x108040) true false).action ∈ [Action.capture, .captureMark] := by decide

/-- `working` with epoch 7's MARKER in flight, with epoch 7 broken, with the granule of 108040h captured. -/
def markerJob (p : MarkerPurpose) (n : Nat) : MarkerJob := ⟨7, 100, p, .manual, 0, zeros 96, n⟩
def markerOut (p : MarkerPurpose) (n : Nat) : State :=
  withJ (burst1 .marker) { working with journal.marker := .inFlight (markerJob p n) }
def broken (recording : Bool) : State :=
  { working with epochs.latestBroken := 7, epochs.breakRecording := recording }
def captured (s : State) : State := { s with maps.m0.bits := [0x201] }

theorem test_hyp_ArrivalForwarded :
    ((matchAccess merging (ua 0x300000) true false).action = .pass ∧ malformed true (ua 0x300000) = false ∧
      (matchAccess (merging.set 0 .powerOn) (ua 0x1FFF40) true false).action = .mark ∧
      arrivalReady { working with regions.active := merging.set 0 .powerOn }) ∧
    (arrivalReady (inEngine .offline working) ∧ arrivalReady working ∧
      (matchAccess merging (ua 0x108040) false false).action = .capture) ∧
    (∀ r ∈ [true, false], arrivalReady (broken r) ∧ (broken r).currentEpoch ≠ 0 ∧
      (broken r).currentEpoch = (broken r).epochs.latestBroken ∧ (broken r).epochs.breakRecording = r) ∧
    (∀ s ∈ [captured working, captured (markerOut .cut 0)], arrivalReady s ∧
      s.currentEpoch ≠ s.epochs.latestBroken ∧ bitSet s (4 * (ua 0x108040).toNat) = true) ∧
    markerComplete (captured working) 7 = true ∧ markerComplete (captured (markerOut .cut 0)) 7 = false := by decide

/-- `working` with a given number of occupied slots. -/
def filled (n : Nat) : State := { working with journal.occupied := n }
def inBreak (s : State) : State := { s with transit.fullMode := .brk }

/-- free 2 and free 1. -/
theorem test_hyp_CaptureBegins_FullJournal :
    (∀ s ∈ [filled 1022, filled 1023, inBreak (filled 1023)], arrivalReady s ∧ s.epochs.engine = .journaling ∧
      s.currentEpoch ≠ s.epochs.latestBroken ∧ bitSet s (4 * (ua 0x108040).toNat) = false) ∧
    (2 ≤ (filled 1022).free ∧ (filled 1023).free < 2 ∧ (filled 1023).transit.fullMode = .stall) ∧
    (let s : State := { withAccess (captureAt .waitSpace none) (filled 1023) with transit.timer := some 0 }
     s.porn = false ∧ s.transit.access = some (captureAt .waitSpace none) ∧ s.transit.timer = some 0) := by decide

/-- A header write of the given kind and requests, its burst n on the J-port. -/
def headerJob (k : HeaderKind) (r : List HeaderRequest) (n : Nat) : HeaderJob := ⟨.a, 5, zeros 128, n, r, k⟩
def headerOut (k : HeaderKind) (r : List HeaderRequest) (n : Nat) (s : State) : State :=
  withJ (burst1 .header) { s with journal.header.inFlight := some (headerJob k r n) }
def releaseOut (s : State) : State := withSlot (.executing 0x0B 1 false) (headerOut .requested [.release] 7 s)

theorem test_hyp_HoldTimer :
    let stalled (n : Nat) : State := withAccess (captureAt .waitSpace none) { filled n with journal.held := 1 }
    live working ∧ working.transit.access = none ∧
    (∀ n ∈ [1023, 1024], writesJ (releaseOut (stalled n)) .header (slotAddr 100) (zeros 16) ∧
      (releaseOut (stalled n)).journal.header.inFlight = some (headerJob .requested [.release] 7) ∧
      (releaseOut (stalled n)).journal.header.dirty = false ∧
      (releaseOut (stalled n)).link.slot = .executing 0x0B 1 false ∧
      (releaseOut (stalled n)).epochs.pendingMark = 0 ∧
      (releaseOut (stalled n)).transit.access = some (captureAt .waitSpace none)) ∧
    2 ≤ (filled 1022).free ∧ (filled 1023).free < 2 := by decide

def starting : State := { working with epochs.startClaimed := true }

/-- A first beat, the last beat of four, a beat of an access cut; mark writes in each state of the request. -/
theorem test_hyp_ForwardBeat :
    let on (a : Access) (s : State) : Prop := onD (onPort (withAccess a s)) a
    let marked (s : State) : State := onPort (withAccess marking s)
    (on passing working ∧ passing.acked + 1 < beatsOf passing.burst ∧ passing.cut ≠ .afterBeat) ∧
    (on { passing with acked := 3 } working ∧ (passing.write && passing.result.action.marks) = false) ∧
    on { passing with cut := .afterBeat } working ∧
    (on marking working ∧ marking.acked + 1 = beatsOf marking.burst ∧
      marking.result.action ∈ [Action.mark, .captureMark]) ∧
    on marking (inEngine .offline working) ∧ cutFailure (marked working) = none ∧
    on marking (filled 1024) ∧ cutFailure (marked (filled 1024)) = some .journalFull := by decide

/-- A mark write's last beat with a start, a cut in flight, a commit, or a cut left from FAULTED waiting. -/
theorem test_hyp_ForwardBeat_claims :
    let under (c : Claims) (s : State) : State := withClaims c (onPort (withAccess marking s))
    (under ⟨false, none, some 6⟩ starting).epochs.startClaimed = true ∧
    (∀ b ∈ [CutBy.checkpoint, .mark], (under ⟨false, some b, none⟩ checkpointing).epochs.ckptInFlight = true ∧
      (under ⟨false, some b, none⟩ checkpointing).transit.claims = ⟨false, some b, none⟩) ∧
    (∀ c ∈ [(⟨true, none, none⟩ : Claims), ⟨false, some .checkpoint, none⟩],
      cutFailure (under c working) = none ∧ cutFailure (under c (filled 1024)) = some .journalFull ∧
      (c.cut = none ∨ (under c working).epochs.ckptInFlight = false)) ∧
    (under ⟨true, none, none⟩ working).porn = false ∧
    (under ⟨true, none, none⟩ working).dport.burst = some .transit := by decide

theorem test_hyp_BytesInMemory :
    Memory.wf [⟨5, 1⟩] = true ∧ (zeros 2)[1]? = some (0 : Byte) ∧ (6 : Nat) + 4 ≤ 10 := by decide

/-- The states of R37, by transit state and by where the D-port is. -/
theorem test_hyp_EngineChangeCutsAccess :
    (∀ x ∈ [Stage.waitSpace, .waitHeader, .forward, .readOld, .writeRecord, .waitMarker],
      (stage1 x).transit.access = some (captureAt x (some grant1)) ∧ (stage1 x).transit.claims = Claims.none ∧
      (stage1 x).dport.burst ≠ some .transit) ∧
    (captureAt .forward none).result.action ∈ [Action.capture, .captureMark] ∧ (captureAt .forward none).cut = .no ∧
    passing.result.action ∈ [Action.pass, .mark, .guard] ∧
    (withAccess (captureAt .waitMarker none) working).transit.access = some (captureAt .waitMarker none) ∧
    (∀ a ∈ [captureAt .forward none, { captureAt .forward none with acked := 3 }],
      onD (onPort (withAccess a working)) a) ∧ Engine.held.refuses = true := by decide

theorem test_hyp_CaptureReadsAndFails :
    (∀ n ∈ [0, 2, 3], let a : Access := { captureAt .readOld (some grant1) with oldBursts := n }
      onD (onPort (withAccess a working)) a ∧ working.journal.geometry = some geometry1) ∧
    (let s := withJ (burst1 .record) (stage1 .writeRecord)
     carries s (captureAt .writeRecord (some grant1)) ∧ writesJ s .record (slotAddr 100) (zeros 16)) ∧
    (let s := withJ { burst1 .record with live := false } working
     live s ∧ s.journal.jport.burst = some ⟨.record, slotAddr 100, some (zeros 16), false⟩) := by decide

theorem test_hyp_RecordWritten :
    (∀ n ∈ [4, 5], ∀ s ∈ [working, markerOut .cut 0],
      let a : Access := { captureAt .writeRecord (some grant1) with recBursts := n }
      let t := withJ (burst1 .record) (withAccess a s)
      t.transit.access = some a ∧ writesJ t .record (slotAddr 100) (zeros 16)) ∧
    markerComplete working 7 = true ∧ markerComplete (markerOut .cut 0) 7 = false ∧
    working.maps.find .active = some .m0 ∧ working.maps.window = some window1 ∧
    working.epochs.table = [⟨6, 40, 5241, 30, .manual⟩] ++ [⟨7, 71, 5272, 28, .manual⟩] := by decide

theorem test_hyp_WriteBurstsLand :
    writesJ (markerOut .cut 4) .marker (slotAddr 100) (zeros 16) ∧
    (markerOut .cut 4).journal.marker = .inFlight (markerJob .cut 4) ∧
    writesJ (headerOut .requested [.release] 6 working) .header (slotAddr 100) (zeros 16) ∧
    (headerOut .requested [.release] 6 working).journal.header.inFlight =
      some (headerJob .requested [.release] 6) ∧
    (stage1 .writeRecord).transit.access = some (captureAt .writeRecord (some grant1)) ∧
    ({ working with journal.readSlot := some ⟨99, []⟩ } : State).journal.readSlot = some ⟨99, []⟩ := by decide

theorem test_hyp_LayoutsRoundTrip :
    (7 : Word) ≠ 0 ∧ 0x108040 % 64 = 0 ∧ (zeros 64).length = 64 ∧ (Cause.mark = .reopen ↔ (0 : Word) ≠ 0) ∧
    (Cause.reopen = .reopen ↔ (6 : Word) ≠ 0) := by decide

theorem test_hyp_HeaderRequested :
    (inEngine .faulted working).epochs.engine = .faulted ∧ working.journal.header.inFlight = none ∧
    (headerOut .requested [.release] 0 working).journal.header.inFlight = some (headerJob .requested [.release] 0) ∧
    working.epochs.table = ⟨6, 40, 5241, 30, .manual⟩ :: [⟨7, 71, 5272, 28, .manual⟩] ∧
    (let s := headerOut .requested [.brk 7] 7 { broken true with journal.header.dirty := true }
     writesJ s .header (slotAddr 100) (zeros 16) ∧ s.transit.access = none ∧ s.journal.header.dirty = true ∧
       s.journal.header.inFlight = some (headerJob .requested [.brk s.epochs.latestBroken] 7)) ∧
    (∀ a ∈ [passing, captureAt .waitHeader none],
      let s := releaseOut { withAccess a working with journal.header.dirty := true, journal.header.next := [.brk 7] }
      writesJ s .header (slotAddr 100) (zeros 16) ∧ s.transit.access = some a ∧ s.journal.header.dirty = true ∧
        s.journal.header.inFlight = some (headerJob .requested [.release] 7) ∧ a.stage ≠ .waitSpace ∧
        s.link.slot = .executing 0x0B 1 false ∧ s.epochs.pendingMark = 0) := by decide

/-- A release meeting a break: the release is answered, and the next copy carries the break. -/
theorem test_release_meets_a_break :
    leads (exec .headerWriteDone (releaseOut { broken true with
        journal.header.dirty := true, journal.header.next := [.brk 7], journal.held := 5 })) (fun t =>
      decide (t.link.slot = .ready 1 .ok [] false) && decide (t.journal.occupied = 55) &&
      decide (t.journal.held = 0) && !t.journal.header.dirty && decide (t.journal.header.generation = 5) &&
      decide (t.journal.header.inFlight.map (fun j => (j.copy, j.requests)) = some (.a, [.brk 7]))) = true := by
  decide +kernel

/-- Two requests merged on one write: both are reported done by its completion. -/
theorem test_merged_requests_complete_together :
    leads (exec .headerWriteDone (withSlot (.executing 0x0B 1 false)
        (headerOut .requested [.brk 7, .release] 7 (broken true)))) (fun t =>
      decide (t.link.slot = .ready 1 .ok [] false) && !t.epochs.breakRecording &&
      decide (t.journal.header.inFlight = none)) = true := by
  decide +kernel

/-- FORMATTING at a stage, and ROLLING_BACK at a walker state. -/
def formattingAt (x : FormatStage) (s : State) : State := { inEngine .formatting s with epochs.format := x }
def walkingAt (x : WalkerState) (s : State) : State :=
  { inEngine .rollingBack s with epochs.walker := ⟨x, 6, 99, 5300, 1, [], 0, false⟩ }

/-- The sweep of M1 in an engine state, M0 in a state of its own. -/
def sweeping (e : Engine) (m0 : MapState) (bits : Nat) : State :=
  { inEngine e working with maps := ⟨⟨m0, []⟩, ⟨.sweeping, []⟩, some window1, some ⟨.m1, bits⟩, none⟩ }

theorem test_hyp_MarkerComplete :
    (∀ a ∈ [captureAt .forward none, captureAt .waitMarker none, captureAt .waitMarker (some grant1)],
      writesJ (withAccess a (markerOut .cut 5)) .marker (slotAddr 100) (zeros 16)) ∧
    (∀ under ∈ [id, withAccess passing],
      (let s := under (formattingAt .marker (markerOut .format 5))
       writesJ s .marker (slotAddr 100) (zeros 16) ∧ s.journal.marker = .inFlight (markerJob .format 5) ∧
         (s.transit.access.all fun a => decide (a.stage ≠ .waitMarker)) ∧ s.journal.header.inFlight = none) ∧
      (let s := under (walkingAt .reopen (markerOut .reopen 5))
       writesJ s .marker (slotAddr 100) (zeros 16) ∧ s.journal.marker = .inFlight (markerJob .reopen 5) ∧
         (s.transit.access.all fun a => decide (a.stage ≠ .waitMarker)) ∧ s.epochs.walker.state = .reopen)) ∧
    (let s : State := { formattingAt .marker (markerOut .format 5) with
       journal.header.inFlight := some (headerJob .abandoned [] 3) }
     writesJ s .marker (slotAddr 100) (zeros 16) ∧ s.journal.marker = .inFlight (markerJob .format 5) ∧
       s.journal.header.inFlight = some (headerJob .abandoned [] 3)) := by decide

/-- The settling swap, with the other map CLEAN and with its sweep still running. -/
theorem test_hyp_MarkerComplete_swap :
    working.maps.window = some window1 ∧ (working.maps.get .m0).state = .active ∧ working.maps.queued = none ∧
    (working.maps.get .m1).state = .clean ∧ working.maps.running = none ∧
    (let m := (sweeping .settling .active 16384).maps
     m.window = some window1 ∧ (m.get .m0).state = .active ∧ m.queued = none ∧ (m.get .m1).state = .sweeping ∧
       m.running = some ⟨.m1, 16384⟩ ∧
       ((swapMaps m).find .active, (swapMaps m).queued) = (none, some .m0)) := by decide

/-- A RELEASE that waits for the next header write. -/
def releaseWaits (s : State) : State :=
  withSlot (.executing 0x0B 1 false) { s with journal.header.dirty := true, journal.header.next := [.release] }

/-- With no access, and with one in each transit state that a failed MARKER cuts; with a RELEASE that waits. -/
theorem test_hyp_MarkerError :
    ∀ e ∈ [Engine.journaling, .rollingBack, .settling, .held, .formatting, .faulted],
      ∀ x ∈ [Stage.forward, .readOld, .writeRecord, .waitMarker, .waitSpace, .waitHeader],
        ∀ under ∈ [id, withAccess (captureAt x (some grant1))],
        let s := releaseWaits (under (inEngine e (markerOut .cut 3)))
        writesJ s .marker (slotAddr 100) (zeros 16) ∧ s.journal.marker = .inFlight (markerJob .cut 3) ∧
          s.epochs.engine = e ∧ s.journal.header.next = [.release] ∧
          releaseFailed s.journal.header.next s.link.slot = .ready 1 .jError [] false := by decide

/-- The header of `working`'s journal, and a scan of it that is complete. -/
def header1 : Header := ⟨0, 4, 7, 1024, 0x100000, 40, 5241, 6, 0, 0⟩
def scan1 : Scan := ⟨[⟨6, 40, 5241, 30, .manual⟩, ⟨7, 71, 5272, 28, .manual⟩], 60, 100, 7, 5300, false⟩

theorem test_hyp_HeaderWriteComplete :
    (∀ r ∈ [HeaderRequest.checkpoint 7 .manual 71 0, .release, .brk 7, .start, .startAborted, .recover, .settle],
      ∀ s ∈ [working, stage1 .waitHeader, withAccess passing working],
        writesJ (headerOut .requested [r] 7 s) .header (slotAddr 100) (zeros 16) ∧
        (headerOut .requested [r] 7 s).journal.header.inFlight = some (headerJob .requested [r] 7) ∧
        (headerOut .requested [r] 7 s).journal.header.dirty = false) ∧
    (let s := headerOut .requested [.release, .brk 7, .settle] 7 { working with journal.header.dirty := true }
     writesJ s .header (slotAddr 100) (zeros 16) ∧ s.journal.header.dirty = true ∧
       s.journal.header.inFlight = some (headerJob .requested [.release, .brk 7, .settle] 7)) ∧
    (let s : State := { working with epochs.ckptInFlight := true }
     s.epochs.ckptInFlight = true ∧ s.epochs.engine = .journaling ∧ s.epochs.pendingMark = 0) ∧
    (∀ a ∈ [passing, captureAt .waitHeader none],
      (releaseOut (withAccess a (inEngine .held working))).link.slot = .executing 0x0B 1 false ∧ a.stage ≠ .waitSpace) ∧
    working.epochs.pendingMark = 0 ∧ passing.stage ≠ .waitHeader ∧ working.epochs.ckptInFlight = false ∧
    working.epochs.walker.state ≠ .waitStart ∧ (broken true).epochs.latestBroken ≠ 6 ∧
    (broken true).epochs.latestBroken = 7 ∧ (walkingAt .waitStart working).epochs.walker.state = .waitStart ∧
    (let s : State := { inEngine .recovering working with epochs.recovery := .header header1 scan1 }
     s.epochs.engine = .recovering ∧ s.epochs.recovery = .header header1 scan1) ∧
    (inEngine .settling working).maps.m0.state = .active ∧
    (let s : State := { inEngine .settling working with maps.m0.state := .sweeping }
     s.maps.m0.state ≠ .active ∧ s.maps.m1.state ≠ .active) := by decide

theorem test_hyp_FormatCopiesComplete_HeaderError :
    (∀ k ∈ [HeaderKind.formatA, .formatB, .abandoned], ∀ x ∈ [FormatStage.sweep, .marker, .copyA],
      let s := headerOut k [] 7 (formattingAt x working)
      writesJ s .header (slotAddr 100) (zeros 16) ∧ s.journal.header.inFlight = some (headerJob k [] 7) ∧
        s.epochs.engine = .formatting ∧ s.epochs.format = x) ∧
    (let s := headerOut .abandoned [] 7 (inEngine .faulted working)
     writesJ s .header (slotAddr 100) (zeros 16) ∧ s.epochs.engine ≠ .formatting) ∧
    (∀ r ∈ [HeaderRequest.checkpoint 7 .manual 71 0, .brk 7, .start, .settle, .release, .recover],
      ∀ x ∈ [working, stage1 .readOld], let s := releaseWaits (headerOut .requested [r] 7 x)
        writesJ s .header (slotAddr 100) (zeros 16) ∧ s.journal.header.inFlight = some (headerJob .requested [r] 7) ∧
          s.epochs.walker.state = .stopped ∧ HeaderRequest.recover ∉ s.journal.header.next ∧
          releaseFailed (s.journal.header.next ++ [r]) s.link.slot = .ready 1 .jError [] false) ∧
    (∀ e ∈ [Engine.journaling, .rollingBack, .settling, .held, .faulted, .recovering],
      let s := releaseWaits (headerOut .requested [.recover] 7 { inEngine e working with
        epochs.recovery := .header header1 scan1 })
      writesJ s .header (slotAddr 100) (zeros 16) ∧ s.epochs.engine = e ∧
        s.epochs.recovery = .header header1 scan1) := by decide

/-- RECOVERING at a stage, with a read burst of the recovery on the J-port. -/
def recoveringAt (x : RecoveryStage) : State :=
  withJ (reading .recovery) { inEngine .recovering working with epochs.recovery := x }

theorem test_hyp_SweepCompletes :
    (∀ e ∈ [Engine.offline, .rollingBack, .held, .faulted, .journaling],
      live (sweeping e .active 16384) ∧ (sweeping e .active 16384).maps.running = some ⟨.m1, 16384⟩ ∧
        (sweeping e .active 16384).epochs.pendingMark = 0) ∧
    (∀ d ∈ [true, false], ∀ m ∈ [MapState.active, .sweeping],
      let s : State := { sweeping .settling m 16384 with epochs.settleDone := d }
      live s ∧ s.maps.running.isSome ∧ s.epochs.settleDone = d ∧ s.maps.m0.state = m) ∧
    (∀ n ∈ [16384, 262144],
      let s := { sweeping .formatting .clean n with epochs.format := .sweep }
      live s ∧ s.maps.queued = none ∧ s.epochs.format = .sweep ∧ s.maps.window = some geometry1.window ∧
        s.journal.geometry = some geometry1) ∧
    window1.bits = 16384 ∧
    (let s : State := { sweeping .recovering .clean 16384 with epochs.recovery := .sweep header1 }
     live s ∧ s.epochs.recovery = .sweep header1 ∧ s.maps.m0.state = .clean) ∧
    (∀ n ∈ [16384, 262144], ∀ x ∈ [formattingAt .sweep working,
        { inEngine .recovering working with epochs.recovery := .sweep header1 }],
      let s : State := { x with maps := { (sweeping .formatting .sweeping n).maps with queued := some .m0 } }
      live s ∧ s.maps.running = some ⟨.m1, n⟩ ∧ s.maps.queued = some .m0 ∧ s.maps.window = some window1 ∧
        s.maps.m0.state ≠ .clean ∧ s.epochs.engine = x.epochs.engine) ∧
    (formattingAt .marker working).epochs.format ≠ .sweep ∧
    (recoveringAt (.scan header1 scan1 [])).epochs.recovery = .scan header1 scan1 [] := by decide

theorem test_hyp_CutTaken :
    (∀ c ∈ [(⟨false, some .checkpoint, none⟩ : Claims), ⟨false, some .mark, none⟩, ⟨true, some .mark, none⟩,
        ⟨false, some .checkpoint, some 6⟩, ⟨true, some .mark, some 6⟩],
      let s := withClaims c checkpointing
      s.porn = false ∧ s.transit.access = none ∧ s.transit.claims = c ∧ c.cut.isSome) ∧
    (let s := checkpointing
     s.epochs.ckptInFlight = true ∧ s.epochs.engine = .journaling ∧ s.journal.geometry = some geometry1 ∧
      s.maps.window = some window1 ∧ (s.maps.get .m0).state = .active ∧ s.maps.m1.state = .clean ∧
      s.maps.running = none ∧ s.maps.queued = none) ∧
    (inEngine .faulted working).epochs.engine ≠ .journaling ∧
    (withClaims ⟨false, some .mark, none⟩ working).epochs.ckptInFlight = false ∧
    working.transit.claims.cut = none ∧ working.transit.claims.start = none ∧
    (withClaims ⟨false, some .mark, none⟩ (stage1 .forward)).transit.access.isSome := by decide

/-- A cut beside a commit: the cut is made, and the commit is taken next. -/
theorem test_cut_and_commit_at_one_boundary :
    leads (exec .cutTaken (withSlot (.executing 5 1 false) (withClaims ⟨true, some .checkpoint, none⟩ checkpointing)))
      (fun t => decide (t.currentEpoch = 8) && decide (t.link.slot = .ready 1 .ok [] false) &&
        decide (t.transit.claims = Claims.none)) = true := by decide +kernel

/-- A cut claim left from FAULTED, a FORMAT later: it is dropped, and no epoch is opened. -/
theorem test_cut_left_from_faulted_is_dropped :
    leads (exec .cutTaken (withClaims ⟨false, some .checkpoint, none⟩ working)) (fun t =>
      decide (t.currentEpoch = 7) && decide (t.journal.marker = .none) && !t.epochs.ckptInFlight &&
      decide (t.transit.claims = Claims.none)) = true := by decide

/-- Every cut condition fails in some state, and a pending mark meets a sweep's end in each way. -/
theorem test_hyp_CutConditions :
    cutFailure (inEngine .held working) = some .wrongState ∧
    cutFailure { working with epochs.ckptInFlight := true } = some .ckptInFlight ∧
    cutFailure (sweeping .journaling .active 16384) = some .sweepBusy ∧
    cutFailure (filled 1024) = some .journalFull ∧ cutFailure (filled 1023) = none ∧
    cutFailure { working with epochs.table := List.replicate 16 ⟨7, 71, 5272, 28, .manual⟩ } = some .epochsFull ∧
    cutFailure { working with epochs.lastUsed := 0xFFFFFFFF } = some .epochLimit ∧
    (∀ n ∈ [1023, 1024], let s : State := { sweeping .journaling .active 16384 with
        epochs.pendingMark := 1, journal.occupied := n }
      s.porn = false ∧ s.maps.running = some ⟨.m1, 16384⟩ ∧ s.epochs.pendingMark = 1 ∧ s.transit.claims = Claims.none ∧
      ((cutFailure { s with maps := endSweep s.maps } = none) ↔ n = 1023)) := by decide

/-- A pending mark at the end of a checkpoint's and of a RELEASE's header write: with no access, with one, and with a
stalled write that finds a slot or does not. -/
theorem test_hyp_CutConditions_header :
    (∀ s ∈ [checkpointing, withAccess passing checkpointing],
      let t := headerOut .requested [.checkpoint 7 .manual 71 0] 7 { s with epochs.pendingMark := 2 }
      writesJ t .header (slotAddr 100) (zeros 16) ∧ t.epochs.ckptInFlight = true ∧ 0 < t.epochs.pendingMark ∧
        t.journal.header.dirty = false ∧
        t.journal.header.inFlight = some (headerJob .requested [.checkpoint 7 .manual 71 0] 7)) ∧
    (∀ s ∈ [working, withAccess passing (filled 1023), withAccess (captureAt .waitSpace none) (filled 1023),
        withAccess (captureAt .waitSpace none) (filled 1024)],
      let t := releaseOut { s with epochs.pendingMark := 2, journal.held := 1 }
      writesJ t .header (slotAddr 100) (zeros 16) ∧ t.journal.header.dirty = false ∧ t.epochs.engine = .journaling ∧
        0 < t.epochs.pendingMark ∧ t.link.slot = .executing 0x0B 1 false ∧
        t.journal.header.inFlight = some (headerJob .requested [.release] 7)) := by decide

theorem test_hyp_RollbackStart :
    ∀ e ∈ [Engine.journaling, .held, .faulted], ∀ c ∈ [true, false], ∀ b ∈ [none, some CutBy.mark],
      let s := withClaims ⟨c, b, some 6⟩ (inEngine e working)
      s.porn = false ∧ s.transit.access = none ∧ s.transit.claims = ⟨c, b, some 6⟩ := by decide

theorem test_hyp_WalkHalts :
    (withSlot (.executing 0x0D 1 false) working).link.slot = .executing 0x0D 1 false ∧
    (∀ (tag : Byte) (lost : Bool), working.link.slot ≠ .executing 0x0D tag lost) ∧
    (∀ w ∈ [WalkerState.waitStart, .read, .writeBack, .reopen],
      frameExecutes 0x0D (frameOf 0x0D []) (walkingAt w working)) ∧
    frameExecutes 0x0D (frameOf 0x0D []) working :=
  ⟨by decide, fun _ _ h => Slot.noConfusion (h : Slot.empty = _), by decide +kernel, by decide +kernel⟩

/-- The walk about to read the last burst of a slot; the sixteen bytes it reads are zero. -/
def walkReads (record : List Byte) (cursor expected : Nat) (sequence target : Word) (abort : Bool) : State :=
  withJ (reading .walker) { inEngine .rollingBack working with
    epochs.walker := ⟨.read, target, cursor, sequence, expected, record.take 80, 0, abort⟩ }

def undo99 : List Byte := undoRecord 7 5300 7 0x108040 (zeros 64)
def marker71 : List Byte := markerRecord 7 5272 7 .manual 0 0

theorem test_hyp_WalkerReads :
    readsJ (walkReads [] 99 1 5300 6 false) .walker (slotAddr 99) ∧
    readsJ (walkReads (zeros 96) 99 1 5300 6 false) .walker (slotAddr 99) ∧
    (∀ b ∈ [true, false], readsJ (walkReads (zeros 96) 71 1 5272 6 b) .walker (slotAddr 99)) ∧
    working.epochs.table[1]? = some ⟨7, 71, 5272, 28, .manual⟩ := by decide +kernel

set_option maxRecDepth 200000 in
theorem test_hyp_WalkerReads_record :
    verdict (some 7) undo99 = .valid ∧ undo99.drop 80 = State.reset.jmem.readBytes (slotAddr 99) 16 := by decide +kernel

set_option maxRecDepth 200000 in
theorem test_hyp_WalkerReads_marker :
    verdict (some 7) marker71 = .valid ∧ marker71.drop 80 = State.reset.jmem.readBytes (slotAddr 99) 16 := by
  decide +kernel

set_option maxRecDepth 200000 in
theorem test_hyp_WriteBack :
    (∀ n ∈ [2, 3], ∀ b ∈ [true, false],
      let s : State := { inEngine .rollingBack working with
        epochs.walker := ⟨.writeBack, 6, 99, 5300, 1, undo99, n, b⟩
        dport.burst := some (.walker 0x108060 (zeros 16)) }
      live s ∧ s.dport.burst = some (.walker 0x108060 (zeros 16)) ∧ s.epochs.walker.state = .writeBack) ∧
    readsJ (walkReads [] 99 1 5300 6 false) .walker (slotAddr 99) ∧
    (walkingAt .writeBack working).dport.burst = none ∧ (walkingAt .writeBack working).transit.access = none := by
  decide +kernel

def held6 : State := { inEngine .held working with epochs.pendingTarget := 6 }
def lastEpoch : State := { working with epochs.lastUsed := 0xFFFFFFFF }

/-- ROLLBACK accepted in three places, and each of the seven checks failing after the ones before it hold. -/
theorem test_hyp_Rollback :
    (∀ k ∈ [0, 5, 6, 7], frameExecutes 0x0C (frameOf 0x0C (beBytes 4 k)) working) ∧
    (∀ s ∈ [inEngine .offline working, inEngine .faulted working, inEngine .settling working,
        starting, checkpointing, broken false, held6, lastEpoch, stage1 .forward, stage1 .waitSpace],
      frameExecutes 0x0C (frameOf 0x0C (be32 6)) s ∧ s.transit.claims = Claims.none) ∧
    (∀ x ∈ [Stage.forward, .waitSpace], let s := withClaims ⟨true, none, none⟩ (stage1 x)
      frameExecutes 0x0C (frameOf 0x0C (be32 6)) s ∧ s.transit.access = some (captureAt x (some grant1))) ∧
    working.epochs.table.map (fun e => e.epoch) = [6, 7] ∧
    (broken false).epochs.latestBroken.toNat = 7 ∧ working.epochs.latestBroken.toNat < 6 ∧
    held6.epochs.pendingTarget.toNat = 6 := by decide +kernel

def formatParams (identity : Word) (count base : Nat) (code : Byte) : List Byte :=
  be32 identity ++ beBytes 4 count ++ beBytes 4 base ++ [code]

theorem test_hyp_Format :
    (∀ p ∈ [formatParams 9 64 0x100000 0, formatParams 9 163840 0x1000000 4, formatParams 0 64 0x100000 0,
        formatParams 9 63 0x100000 0, formatParams 9 64 0x4000000 0, formatParams 9 64 0x200000 0],
      ∀ s ∈ [working, inEngine .recovering working, starting, checkpointing, inEngine .offline working],
      frameExecutes 0x08 (frameOf 0x08 p) s) ∧
    firstOutside working.regions.active window1 = none ∧ firstOutside working.regions.active ⟨0x200000, 0⟩ = some 0 ∧
    (∀ x ∈ [Stage.readOld, .writeRecord, .waitMarker],
      frameExecutes 0x08 (frameOf 0x08 (formatParams 9 64 0x100000 0)) (stage1 x)) ∧
    working.journal.jport.burst = none ∧ working.maps.running = none ∧
    (sweeping .journaling .active 16384).maps.queued = none := by decide +kernel

theorem test_hyp_Recover :
    (∀ e ∈ [Engine.formatting, .recovering, .rollingBack, .settling, .journaling, .held, .faulted, .offline],
      frameExecutes 0x09 (frameOf 0x09 []) (inEngine e working) ∧
        frameExecutes 0x09 (frameOf 0x09 []) (inEngine e (stage1 .forward))) ∧
    (recoveringAt (.copies [])).epochs.recovery = .copies [] ∧
    (recoveringAt (.scan header1 scan1 [])).epochs.recovery = .scan header1 scan1 [] ∧
    (recoveringAt (.load header1 scan1 ⟨72, 28, 5273⟩ [])).epochs.recovery = .load header1 scan1 ⟨72, 28, 5273⟩ [] ∧
    (recoveringAt (.header header1 scan1)).epochs.recovery = .header header1 scan1 := by decide +kernel

/-- Copy A alone valid, before its last burst. -/
def copiesOf (h : Header) : List Byte := (h.encode ++ zeros 128).take 240

set_option maxRecDepth 200000 in
theorem test_hyp_HeaderCopiesRead :
    readsJ (recoveringAt (.copies [])) .recovery (slotAddr 99) ∧
    chooseCopy (zeros 128) (zeros 128) = none ∧
    (∀ h ∈ [header1, { header1 with slotCount := 63 }, { header1 with windowBase := 0x200000 }],
      let bs := copiesOf h ++ State.reset.jmem.readBytes (slotAddr 99) 16
      256 ≤ bs.length ∧ chooseCopy (bs.take 128) (bs.drop 128) = some (.a, h)) ∧
    firstOutside working.regions.active ⟨0x200000, 0⟩ = some 0 ∧
    firstOutside working.regions.active ⟨header1.windowBase, header1.sizeCode⟩ = none ∧
    (∀ h ∈ [header1, { header1 with generation := 5 }, { header1 with identity := 8 }], headerValid h.encode = true) ∧
    headerValid (zeros 128) = false := by decide +kernel

/-- A scan before the last burst of a slot: at head, after a MARKER, with fifteen and sixteen MARKERs, at the ring's
end. -/
def scanAt (n : Nat) (records : Nat) : Scan :=
  ⟨List.replicate n ⟨6, 40, 5299, 0, .manual⟩, records, 99, 6, 5299, false⟩

set_option maxRecDepth 200000 in
theorem test_hyp_ScanReads :
    let undo := undoRecord 7 5300 6 0x108040 (zeros 64)
    let mark := markerRecord 7 5300 7 .mark 0 0
    let reopen := markerRecord 7 5310 9 .reopen 0 7
    let head := markerRecord 7 5241 6 .manual 0 0
    (∀ r ∈ [undo, mark, reopen, head], verdict (some 7) r = .valid ∧
      r.take 80 ++ State.reset.jmem.readBytes (slotAddr 99) 16 = r) ∧
    (∀ sc ∈ [scanAt 0 0, scanAt 1 1, scanAt 15 20, scanAt 16 20, scanAt 1 1023],
      readsJ (recoveringAt (.scan header1 sc (undo.take 80))) .recovery (slotAddr 99)) ∧
    (Record.decode head).epoch = header1.headEpoch ∧ (Record.decode head).sequence = header1.headSequence ∧
    Cause.ofCode (Record.decode mark).cause = some .mark ∧ Cause.ofCode (Record.decode reopen).cause = some .reopen ∧
    (scanAt 1 1).entries = [] ++ [⟨6, 40, 5299, 0, .manual⟩] ∧ (Record.decode undo).sequence = 5299 + 1 ∧
    (scanAt 1 1023).records + 1 = header1.slotCount ∧ verdict (some 7) (zeros 96) ≠ .valid ∧
    headAccepted 7 { header1 with pendingTarget := 7, headEpoch := 7 } reopen = true ∧
    headAccepted 7 header1 reopen = false ∧ (scanAt 0 0).reopened = false ∧
    nextAccepted 7 window1 (scanAt 1 1) reopen = true := by decide +kernel

set_option maxRecDepth 200000 in
/-- MARKERs after the first: one that follows on and one after a gap, a REOPEN marker after a gap and one that follows
on; the second of each fails its tests. -/
theorem test_hyp_ScanReads_marker :
    (∀ p ∈ [(markerRecord 7 5300 7 .mark 0 0, true), (markerRecord 7 5301 7 .mark 0 0, false),
        (markerRecord 7 5310 9 .reopen 0 7, true), (markerRecord 7 5300 9 .reopen 0 7, false)],
      verdict (some 7) p.1 = .valid ∧ (Record.decode p.1).kind = 0x02 ∧ (Record.decode p.1).cause ∈ [(3 : Byte), 5] ∧
        nextAccepted 7 window1 (scanAt 1 1) p.1 = p.2) ∧
    (scanAt 16 20).entries.length = 16 ∧ (scanAt 1 1).records + 1 ≠ header1.slotCount := by decide +kernel

set_option maxRecDepth 200000 in
theorem test_hyp_JournalRebuilt :
    let undo := undoRecord 7 5273 7 0x108040 (zeros 64)
    let none' : Scan := { scan1 with entries := [⟨6, 40, 5241, 0, .manual⟩] }
    none'.entries = [] ++ [⟨6, 40, 5241, 0, .manual⟩] ∧
    scan1.entries = [⟨6, 40, 5241, 30, .manual⟩] ++ [⟨7, 71, 5272, 28, .manual⟩] ∧
    (∀ n ∈ [1, 2], readsJ (recoveringAt (.load header1 scan1 ⟨72, n, 5273⟩ (undo.take 80))) .recovery (slotAddr 99)) ∧
    (∀ x ∈ [undo, markerRecord 7 5273 7 .mark 0 0],
      x.take 80 ++ State.reset.jmem.readBytes (slotAddr 99) 16 = x ∧ verdict (some 7) x = .valid ∧
      (Record.decode x).sequence = 5273) ∧ verdict (some 7) (zeros 96) ≠ .valid ∧ (Record.decode undo).kind = 0x01 ∧
    (recoveringAt (.copies [])).epochs.engine = .recovering := by decide +kernel

theorem test_hyp_CheckpointAndRelease :
    (∀ s ∈ [filled 1024, working, stage1 .forward], frameExecutes 0x0A (frameOf 0x0A []) s ∧
      s.transit.claims = Claims.none) ∧
    (cutFailure (filled 1024) = some .journalFull ∧ cutFailure working = none ∧ cutFailure (stage1 .forward) = none) ∧
    (∀ e ∈ [0, 5, 6, 7], frameExecutes 0x0B (frameOf 0x0B (beBytes 4 e)) working) ∧
    (∀ s ∈ [inEngine .faulted working, checkpointing, held6],
      frameExecutes 0x0B (frameOf 0x0B (be32 6)) s) ∧
    (working.epochs.table.filter fun x => decide ((6 : Word) < x.epoch)) = ⟨7, 71, 5272, 28, .manual⟩ :: [] := by
  decide +kernel

theorem test_hyp_SetPolicy :
    ∀ p ∈ [[(0 : Byte)] ++ beBytes 2 1 ++ beBytes 4 163840 ++ [20] ++ beBytes 2 4095,
        [1] ++ beBytes 2 65535 ++ beBytes 4 0 ++ [133] ++ beBytes 2 0,
        [2] ++ beBytes 2 1 ++ beBytes 4 0 ++ [20] ++ beBytes 2 0,
        [1] ++ beBytes 2 0 ++ beBytes 4 0 ++ [20] ++ beBytes 2 0,
        [1] ++ beBytes 2 1 ++ beBytes 4 163841 ++ [20] ++ beBytes 2 0,
        [1] ++ beBytes 2 1 ++ beBytes 4 0 ++ [19] ++ beBytes 2 0,
        [1] ++ beBytes 2 1 ++ beBytes 4 0 ++ [20] ++ beBytes 2 4096],
      frameExecutes 0x07 (frameOf 0x07 p) working := by decide +kernel

/-- An empty list, an entry of the kind with a count at its limit, a masked kind. -/
def noticed : State := { working with notices := ⟨[⟨1, .formatDone false⟩, ⟨255, .journalLow 3⟩], 0x001⟩ }

theorem test_hyp_Notices :
    frameExecutes 0x0F (frameOf 0x0F []) working ∧ working.notices.list = [] ∧ frameExecutes 0x0F (frameOf 0x0F []) noticed ∧
    noticed.notices.list = ⟨1, .formatDone false⟩ :: [⟨255, .journalLow 3⟩] ∧
    noticed.notices.mask.getLsbD ((Notice.ckptDone 1 .mark 0 0).kind - 1) = true ∧
    noticed.notices.mask.getLsbD ((Notice.journalLow 2).kind - 1) = false ∧
    noticed.notices.list = [⟨1, .formatDone false⟩] ++ ⟨255, .journalLow 3⟩ :: [] ∧ (Notice.journalLow 3).kind = (Notice.journalLow 2).kind ∧
    (∀ x ∈ noticed.notices.list, x.notice.kind ≠ (Notice.markDeferred .ok).kind) := by decide +kernel

theorem test_hyp_ReadSlot :
    (∀ i ∈ [0, 1023, 1024], frameExecutes 0x10 (frameOf 0x10 (beBytes 4 i)) working) ∧
    (∀ i ∈ [163839, 163840], frameExecutes 0x10 (frameOf 0x10 (beBytes 4 i))
      { State.reset with link.framer := .first }) ∧
    frameExecutes 0x10 (frameOf 0x10 (beBytes 4 0)) (inEngine .recovering working) ∧
    (∀ n ∈ [64, 80], let s : State := withSlot (.executing 0x10 1 false) (withJ (reading .readSlot)
        { working with journal.readSlot := some ⟨99, zeros n⟩ })
      readsJ s .readSlot (slotAddr 99) ∧ s.journal.readSlot = some ⟨99, zeros n⟩ ∧
        s.link.slot = .executing 0x10 1 false) := by decide +kernel

/-- Slots at the two ends of the journal, of the free slots and of the held ones, and with no geometry. -/
theorem test_standing_of_slots :
    let s : State := { working with journal.held := 5, journal.occupied := 65 }
    ([40, 99, 100, 34, 35, 39].map (standingOf s)) = [.inJournal, .inJournal, .free, .free, .held, .held] ∧
    standingOf State.reset 0 = .noJournal ∧ s.journal.head < 1024 ∧ s.journal.held < s.journal.occupied ∧
    s.journal.occupied ≤ 1024 := by decide

theorem test_hyp_LinkTransactions :
    live State.reset ∧ State.reset.link.framer = .idle ∧
    (withSlot (.ready 1 .ok [] false) State.reset).link.slot = .ready 1 .ok [] false ∧
    (∀ (tag : Byte) (st : Status) (data : List Byte) (lost : Bool), State.reset.link.slot ≠ .ready tag st data lost) ∧
    working.link.framer ≠ .idle ∧ working.link.mso = [] ∧
    (State.reset.porn = false ∧ exec .transactionStart State.reset =
      .next (State.reset.setLink ⟨.first, .empty, [], 0, false⟩)) ∧
    (∀ b ∈ [true, false], let s : State := { working with link := ⟨.first, .ready 1 .ok [] b, zeros 6, 0, b⟩ }
      live s ∧ s.link.mso ≠ []) ∧
    ({ working.link with mso := [0x3C] } : Link).mso[0]? = some 0x3C :=
  ⟨by decide, by decide, by decide, fun _ _ _ _ h => Slot.noConfusion (h : Slot.empty = _), by decide, by decide,
    ⟨by decide, rfl⟩, by decide, by decide⟩

/-- A commit left over is taken at the start of a transaction, and its answer is delivered in it. -/
theorem test_transaction_after_a_claim_left_over :
    (State.withTransaction (withSlot (.executing 5 1 false) (withClaims ⟨true, none, none⟩ State.reset))
      (List.replicate 48 true)).pending = [.transactionStart, .responseDelivered, .transactionEnd] := by
  decide +kernel

/-- A length byte of 33, an unknown code, a wrong check, a wrong length, frames lost. -/
theorem test_hyp_FramesNotExecuted :
    (live working ∧ working.link.framer = .first ∧ working.link.clocked ≤ 4 ∧ 32 < (33 : Byte).toNat ∧
      slotFreeAt 4 working.link) ∧
    (frameJudged 0x11 (frameOf 0x11 []) working ∧ isCommandCode 0x11 = false) ∧
    (slotFreeAt 5 working.link ∧ ∀ n ∈ [0x06, 0x11], let c : Byte := BitVec.ofNat 8 n
      (⟨0x25, [], 0x93⟩ : Frame).check ≠ crc8 (frameChecked c ⟨0x25, [], 0x93⟩)) ∧
    (frameJudged 0x06 (frameOf 0x06 [0]) working ∧ paramLength 0x06 ≠ some (frameOf 0x06 [0]).params.length) ∧
    (∀ x ∈ [Slot.executing 5 1 false, .ready 1 .ok [] false], live (withSlot x working) ∧
      (withSlot x working).link.framer = .first ∧ (withSlot x working).link.mso = [] ∧
      (withSlot x working).link.slot = x) := by decide +kernel

theorem test_hyp_FramesDecodeToTheirCommands :
    (Instr.lengthOverrun 1 2 33).wellFormed = true ∧ encodeFrame (.lengthOverrun 1 2 33) = some [0xC3, 1, 2, 33] ∧
    (Instr.readNotice (frameOf 0x0F [])).wellFormed = true ∧
    (encodeFrame (.readNotice (frameOf 0x0F []))).isSome = true ∧ ([true, false, true] : List Bool).length < 8 := by
  decide +kernel

/-- REVERT_STAGED bit by bit on MSI, three bits of a seventh byte after it. -/
theorem test_bits_of_a_transaction :
    let msi := [true, true, false, false, false, false, true, true,  false, false, false, false, false, true, true, false,
      false, false, true, false, false, true, false, true,  false, false, false, false, false, false, false, false,
      true, false, false, true, false, false, true, false,  true, true, true, true, true, true, true, true,
      true, false, true]
    assembleBytes msi = [0xC3, 0x06, 0x25, 0x00, 0x92, 0xFF] ∧
    transactionCommands 6 msi =
      [.transactionStart, .revertStaged ⟨0x25, [], 0x92⟩, .responseDelivered, .transactionEnd] ∧
    transactionCommands 0 (msi.take 39) = [.transactionStart, .transactionEnd] ∧
    (State.reset.withTransaction (msi.take 40)).pending =
      [.transactionStart, .revertStaged ⟨0x25, [], 0x92⟩, .transactionEnd] := by decide

/-- The first byte of a response on MSO is 3Ch; ones follow its end. -/
theorem test_bits_of_a_response :
    let l : Link := { working.link with mso := [0x3C] }
    [0, 1, 2, 3, 4, 5, 6, 7, 8].map l.msoBit =
      [false, false, true, true, true, true, false, false, true].map some ∧ State.reset.link.msoBit 0 = none := by decide

/-- Both claimants of the D-port wait; the last claimant of the J ring is the only one, and the first after it. -/
theorem test_hyp_Arbiters :
    (∀ c ∈ [DClient.walker, .transit],
      let s : State := { walkingAt .writeBack (withAccess passing working) with dport.last := c }
      transitWaits s = true ∧ walkerWaits s = true ∧ s.dport = ⟨c, none⟩) ∧
    (transitWaits (withAccess passing working) = true ∧ walkerWaits (withAccess passing working) = false) ∧
    (transitWaits (walkingAt .writeBack working) = false ∧ walkerWaits (walkingAt .writeBack working) = true) ∧
    (onPort working).dport.burst ≠ none ∧ (withJ (burst1 .record) working).journal.jport.burst ≠ none ∧
    (let s : State := { working with journal.readSlot := some ⟨99, []⟩ }
     s.journal.jport = ⟨.readSlot, none⟩ ∧ jWaits s .readSlot = true ∧
       ∀ c ∈ [JClient.record, .marker, .header, .walker, .recovery], jWaits s c = false) ∧
    (jWaits (stage1 .writeRecord) .record && jWaits (markerOut .cut 0) .marker &&
      jWaits (headerOut .requested [] 0 working) .header && jWaits (walkingAt .read working) .walker &&
      jWaits (recoveringAt (.copies [])) .recovery && transitWaits (stage1 .readOld)) = true := by decide

/-- The premises of the laws' statements hold together in `working`, and a step leads from it. -/
theorem test_hyp_EngineLaw : EngineLaw working where
  walk := by decide
  recovery := by decide
  format := by decide
  copyA := nofun
  copyB := nofun
  formatMarker := nofun
  claimed := by decide
  claimedIn := by decide
  mark := by decide
  marks := by decide
  checkpoint := by decide
  window := by decide
  absent := by decide
  present := by decide
  unwritten h := absurd h (by decide)
  read := nofun

theorem test_hyp_MapLaw : MapLaw working where
  one := by decide
  active := by decide
  running := nofun
  queued := nofun
  sweeping i := by cases i <;> exact fun h => absurd h (by decide)
  formatting := by decide
  scanning := nofun
  loading := nofun
  cutIn := by decide
  cutClean := by decide

theorem test_hyp_EpochLaw : EpochLaw working where
  room := by decide
  rising := by decide
  numbered := by decide
  cut := by decide
  current := by decide
  formatted := by decide
  rebuilt := nofun
  scanned := nofun

theorem test_hyp_TransitLaw : TransitLaw working ∧ working.epochs.lastUsed.toNat ≤ 4294967290 :=
  ⟨{ access := fun a h => by cases (h : none = some a)
     idle := fun _ => rfl
     port := fun h => by cases (h : none = some DBurst.transit) },
    by decide⟩

theorem test_hyp_laws : MemoriesCanonical working ∧ NoticesLawful working ∧ step working = .next working :=
  ⟨⟨by decide, by decide⟩, ⟨by decide, by decide⟩, rfl⟩

/-! ## One step of some commands -/

theorem test_checkpoint_cuts :
    leads (exec (.checkpoint (frameOf 0x0A [])) working) (fun t =>
      decide (t.link.slot = .ready 0x25 .accepted [0, 0, 0, 8] false) && decide (t.currentEpoch = 8) &&
      decide (t.epochs.table.map (fun e => e.slot) = [40, 71, 100]) && decide (t.journal.sequence = 5302)) = true := by
  decide +kernel

theorem test_rollback_starts :
    leads (exec (.rollback (frameOf 0x0C (be32 6))) working) (fun t =>
      decide (t.link.slot = .ready 0x25 .accepted [0, 0, 0, 6, 0, 0, 0, 8] false) &&
      decide (t.epochs.walker.state = .waitStart) && decide (t.epochs.pendingTarget = 6) &&
      t.journal.header.inFlight.isSome) = true := by
  decide +kernel

set_option maxRecDepth 200000 in
theorem test_walk_verifies_undo :
    leads (exec .walkerSlotRead (walkReads undo99 99 1 5300 6 false)) (fun t =>
      decide (t.epochs.walker.state = .writeBack) && decide (t.dport.burst = some (.walker 0x108040 (zeros 16)))) =
      true := by
  decide +kernel

set_option maxRecDepth 200000 in
theorem test_walk_passes_a_marker :
    leads (exec .walkerSlotRead (walkReads marker71 71 1 5272 6 false)) (fun t =>
      decide (t.epochs.walker.cursor = 70) && decide (t.epochs.walker.sequence = 5271) &&
      decide (t.epochs.walker.expected = 0)) = true := by
  decide +kernel

set_option maxRecDepth 200000 in
theorem test_walk_arrives_and_reopens :
    leads (exec .walkerSlotRead (walkReads marker71 71 1 5272 7 false)) (fun t =>
      decide (t.epochs.walker.state = .reopen) && decide (t.journal.tail = 72) && decide (t.journal.occupied = 32) &&
      decide (t.epochs.table.map (fun e => (e.epoch.toNat, e.cause)) = [(6, .manual), (8, .reopen)])) = true := by
  decide +kernel

theorem test_format_begins :
    leads (exec (.format (frameOf 0x08 (formatParams 9 64 0x100000 0))) (inEngine .offline working)) (fun t =>
      decide (t.epochs.engine = .formatting) && decide (t.maps.running = some ⟨.m0, 16384⟩) &&
      decide (t.maps.queued = some .m1) && decide (t.journal.sequence = 1)) = true := by
  decide +kernel

set_option maxRecDepth 200000 in
theorem test_scan_extends :
    leads (exec .scanSlotRead (recoveringAt (.scan header1 (scanAt 1 1)
      ((undoRecord 7 5300 6 0x108040 (zeros 64)).take 80)))) (fun t =>
      match t.epochs.recovery with
      | .scan _ sc [] => decide (sc.records = 2) && decide (sc.slot = 100) && decide (sc.sequence = 5300)
      | _ => false) = true := by
  decide +kernel

theorem test_tick_and_expiry :
    leads (exec .timeBaseTick { stage1 .waitSpace with transit.timer := some 1 }) (fun t =>
      decide (t.transit.timer = some 0) &&
      leads (exec .holdTimerExpiry t) (fun u => decide (u.epochs.latestBroken = 7) && u.epochs.breakRecording &&
        decide (u.transit.access.map (fun a => a.stage) = some .waitHeader))) = true := by
  decide +kernel

theorem test_response_delivered_empties_the_slot :
    leads (exec .transactionStart (withSlot (.ready 0x25 .ok [] false) State.reset)) (fun t =>
      decide (t.link.mso = [0x3C, 0x25, 0x00, 0x00, 0x00, 0x80]) &&
      leads (exec .responseDelivered t) (fun u => decide (u.link.slot = .empty))) = true := by
  decide +kernel

end Sys2Proof.Tests
end

section
/-! Chapter 1: the compare of a region and the containment test, bit by bit (R3, R6, R15). -/

namespace Sys2Proof.Machine

/-! ## The compare (R3, R6) -/

theorem RegionClass.admits_iff (c : RegionClass) (priv : Bool) : c.admits priv = true ↔
    c = .either ∨ (c = .normal ∧ priv = false) ∨ (c = .privileged ∧ priv = true) := by
  cases c <;> simp [RegionClass.admits]

theorem RegionClass.exists_admits (c : RegionClass) : ∃ priv, c.admits priv = true :=
  match c with
  | .normal => ⟨false, rfl⟩
  | .privileged => ⟨true, rfl⟩
  | .either => ⟨true, rfl⟩

/-- A compare under a mask, as the bits it compares. -/
theorem xor_and_not_eq_zero_iff {n : Nat} (x b m : BitVec n) :
    (x ^^^ b) &&& ~~~m = 0#n ↔ ∀ i : Nat, i < n → m.getLsbD i = false → x.getLsbD i = b.getLsbD i := by
  rw [BitVec.eq_of_getLsbD_eq_iff]
  refine forall₂_congr fun i hi => ?_
  simp only [BitVec.getLsbD_and, BitVec.getLsbD_xor, BitVec.getLsbD_not, BitVec.getLsbD_zero, hi, decide_true,
    Bool.true_and]
  cases m.getLsbD i <;> simp

theorem regionAddr_getLsbD (ua : BitVec 24) {i : Nat} (hi : i < 16) :
    (regionAddr ua).getLsbD i = ua.getLsbD (8 + i) := by
  simp [regionAddr, hi]

theorem Region.hits_iff (r : Region) (ua : BitVec 24) (priv : Bool) : r.hits ua priv = true ↔
    r.enabled = true ∧ r.cls.admits priv = true ∧
      ∀ i : Nat, i < 16 → r.mask.getLsbD i = false → ua.getLsbD (8 + i) = r.base.getLsbD i := by
  have compare : (regionAddr ua ^^^ r.base) &&& ~~~r.mask = 0#16 ↔
      ∀ i : Nat, i < 16 → r.mask.getLsbD i = false → ua.getLsbD (8 + i) = r.base.getLsbD i :=
    (xor_and_not_eq_zero_iff ..).trans (forall₂_congr fun i hi => by rw [regionAddr_getLsbD ua hi])
  simp only [Region.hits, Bool.and_eq_true, decide_eq_true_eq, and_assoc]
  exact and_congr_right' (and_congr_right' compare)

/-! ## Byte addresses and the aligned window (R3, R47) -/

theorem byteAddr_lt (ua : BitVec 24) : byteAddr ua < 2 ^ 26 := by
  unfold byteAddr
  omega

theorem byteAddr_testBit (ua : BitVec 24) {j : Nat} (hj : 2 ≤ j) :
    (byteAddr ua).testBit j = ua.getLsbD (j - 2) := by
  have h : (2 ^ 2 * ua.toNat).testBit j = (decide (j ≥ 2) && ua.toNat.testBit (j - 2)) := Nat.testBit_two_pow_mul
  rwa [decide_eq_true hj, Bool.true_and] at h

theorem Window.aligned_iff (w : Window) :
    w.aligned = true ↔ w.code ≤ 4 ∧ w.size ∣ w.base ∧ w.base < 2 ^ 26 := by
  simp [Window.aligned, and_assoc, Nat.dvd_iff_mod_eq_zero]

theorem Window.size_eq_granules (w : Window) : w.size = 64 * w.bits := by
  rw [Window.size, Window.bits, show 20 + w.code = 6 + (14 + w.code) by omega, Nat.pow_add]

/-- Numbers with the same quotient by a power of two are those that agree in all bits from there on. -/
theorem div_two_pow_eq_iff_testBit (x y n : Nat) :
    x / 2 ^ n = y / 2 ^ n ↔ ∀ j : Nat, n ≤ j → x.testBit j = y.testBit j := by
  constructor
  · intro h j hj
    have bit : (x / 2 ^ n).testBit (j - n) = (y / 2 ^ n).testBit (j - n) := by rw [h]
    simpa [Nat.testBit_div_two_pow, Nat.sub_add_cancel hj] using bit
  · intro h
    refine Nat.eq_of_testBit_eq fun i => ?_
    simpa [Nat.testBit_div_two_pow] using h (i + n) (Nat.le_add_left n i)

/-- An address of the protected memory lies in an aligned window when it has the window base's bits from the window's
size up to bit 25. -/
theorem Window.inside_iff_testBit {w : Window} (h : w.aligned = true) {a : Nat} (ha : a < 2 ^ 26) :
    (w.base ≤ a ∧ a < w.base + w.size) ↔
      ∀ j : Nat, 20 + w.code ≤ j → j ≤ 25 → a.testBit j = w.base.testBit j := by
  obtain ⟨-, hdvd, hbase⟩ := (Window.aligned_iff w).mp h
  have hpos : 0 < w.size := Nat.two_pow_pos _
  calc (w.base ≤ a ∧ a < w.base + w.size)
      ↔ a / w.size = w.base / w.size := by
        rw [Nat.div_eq_iff hpos, Nat.div_mul_cancel hdvd]
        omega
    _ ↔ ∀ j : Nat, 20 + w.code ≤ j → a.testBit j = w.base.testBit j := div_two_pow_eq_iff_testBit ..
    _ ↔ ∀ j : Nat, 20 + w.code ≤ j → j ≤ 25 → a.testBit j = w.base.testBit j := by
        refine forall₂_congr fun j _ => ⟨fun e _ => e, fun e => ?_⟩
        by_cases hj : j ≤ 25
        · exact e hj
        · have le : 2 ^ 26 ≤ 2 ^ j := Nat.pow_le_pow_right (by decide) (by omega)
          rw [Nat.testBit_lt_two_pow (ha.trans_le le), Nat.testBit_lt_two_pow (hbase.trans_le le)]

/-- The granule of an address in an aligned window lies in it whole, and has its bit in the map. -/
theorem Window.granule_inside {w : Window} (h : w.aligned = true) {a : Nat} (h1 : w.base ≤ a)
    (h2 : a < w.base + w.size) :
    w.base ≤ granuleOf a ∧ granuleOf a + 64 ≤ w.base + w.size ∧ w.index a < w.bits := by
  obtain ⟨-, ⟨k, hk⟩, -⟩ := (Window.aligned_iff w).mp h
  have hbase : w.base = 64 * (w.bits * k) := by rw [hk, w.size_eq_granules, Nat.mul_assoc]
  have hsize := w.size_eq_granules
  unfold granuleOf Window.index
  generalize w.bits * k = m at hbase
  omega

/-! ## The containment test (R15) -/

theorem Region.contained_of_exempted {r : Region} (w : Window) (h : r.enabled = false ∨ r.policy ≠ .capture) :
    r.contained w = true := by
  rcases h with h | h <;> simp [Region.contained, h]

/-- What the test compares: in every address bit from the window's size up, the mask is zero and the bases agree. -/
theorem Region.contained_iff {r : Region} (w : Window) (he : r.enabled = true) (hp : r.policy = .capture) :
    r.contained w = true ↔ ∀ j : Nat, 20 + w.code ≤ j → j ≤ 25 →
      r.mask.getLsbD (j - 10) = false ∧ r.base.getLsbD (j - 10) = w.base.testBit j := by
  simp only [Region.contained, he, hp, Bool.not_true, ne_eq, not_true_eq_false, decide_false, Bool.or_self,
    Bool.false_or, List.all_eq_true, List.mem_range, Bool.and_eq_true, Bool.not_eq_true', beq_iff_eq]
  constructor
  · intro h j hj1 hj2
    have compared := h (j - (20 + w.code)) (by omega)
    rwa [Nat.add_sub_cancel' hj1] at compared
  · intro h i hi
    exact h (20 + w.code + i) (Nat.le_add_right ..) (by omega)

/-- An access that a region matches has the region's base bits wherever the mask is zero. -/
theorem Region.byteAddr_testBit_of_hits {r : Region} {ua : BitVec 24} {priv : Bool} (h : r.hits ua priv = true)
    {j : Nat} (hj1 : 10 ≤ j) (hj2 : j ≤ 25) (hm : r.mask.getLsbD (j - 10) = false) :
    (byteAddr ua).testBit j = r.base.getLsbD (j - 10) := by
  obtain ⟨-, -, compared⟩ := (Region.hits_iff r ua priv).mp h
  rw [byteAddr_testBit ua (by omega), ← compared (j - 10) (by omega) hm]
  congr 1
  omega

theorem Region.inside_of_contained {r : Region} {w : Window} (h : w.aligned = true) (he : r.enabled = true)
    (hp : r.policy = .capture) (hc : r.contained w = true) {ua : BitVec 24} {priv : Bool}
    (hit : r.hits ua priv = true) : w.base ≤ byteAddr ua ∧ byteAddr ua < w.base + w.size := by
  refine (Window.inside_iff_testBit h (byteAddr_lt ua)).mpr fun j hj1 hj2 => ?_
  obtain ⟨hmask, hbase⟩ := (Region.contained_iff w he hp).mp hc j hj1 hj2
  rw [Region.byteAddr_testBit_of_hits hit (by omega) hj2 hmask, hbase]

/-- The access of a region's match set that differs from the window base in every bit under a mask one. -/
def Region.farAccess (r : Region) (w : Window) : BitVec 24 :=
  ((r.base &&& ~~~r.mask) ||| (~~~(BitVec.ofNat 16 (w.base / 2 ^ 10)) &&& r.mask)).setWidth 24 <<< 8

theorem Region.farAccess_getLsbD (r : Region) (w : Window) {i : Nat} (hi : i < 16) :
    (r.farAccess w).getLsbD (8 + i) =
      if r.mask.getLsbD i then !w.base.testBit (i + 10) else r.base.getLsbD i := by
  have h : 8 + i < 24 := by omega
  simp only [Region.farAccess, BitVec.getLsbD_shiftLeft, BitVec.getLsbD_setWidth, BitVec.getLsbD_or,
    BitVec.getLsbD_and, BitVec.getLsbD_not, BitVec.getLsbD_ofNat, Nat.testBit_div_two_pow, Nat.add_sub_cancel_left,
    Nat.not_lt.mpr (Nat.le_add_right 8 i), Nat.lt_of_le_of_lt (Nat.le_add_left i 8) h, h, hi]
  cases r.mask.getLsbD i <;> simp

theorem Region.hits_farAccess {r : Region} (w : Window) (he : r.enabled = true) {priv : Bool}
    (hc : r.cls.admits priv = true) : r.hits (r.farAccess w) priv = true :=
  (Region.hits_iff ..).mpr ⟨he, hc, fun i hi hm => by simp [r.farAccess_getLsbD w hi, hm]⟩

/-- A region whose far access lies in the window passes the test: no mask bit above the window's size can be one. -/
theorem Region.contained_of_farAccess_inside {r : Region} {w : Window} (h : w.aligned = true) (he : r.enabled = true)
    (hp : r.policy = .capture)
    (inside : w.base ≤ byteAddr (r.farAccess w) ∧ byteAddr (r.farAccess w) < w.base + w.size) :
    r.contained w = true := by
  refine (Region.contained_iff w he hp).mpr fun j hj1 hj2 => ?_
  have agree := (Window.inside_iff_testBit h (byteAddr_lt _)).mp inside j hj1 hj2
  have far := r.farAccess_getLsbD w (i := j - 10) (by omega)
  rw [byteAddr_testBit _ (by omega), show j - 2 = 8 + (j - 10) by omega, far, Nat.sub_add_cancel (by omega)] at agree
  cases hm : r.mask.getLsbD (j - 10) with
  | false => exact ⟨rfl, by simpa [hm] using agree⟩
  | true => simp [hm] at agree

theorem Region.exists_outside_of_not_contained {r : Region} {w : Window} (h : w.aligned = true) (he : r.enabled = true)
    (hp : r.policy = .capture) (hc : r.contained w = false) :
    ∃ (ua : BitVec 24) (priv : Bool), r.hits ua priv = true ∧
      ¬ (w.base ≤ byteAddr ua ∧ byteAddr ua < w.base + w.size) := by
  obtain ⟨priv, admits⟩ := r.cls.exists_admits
  refine ⟨r.farAccess w, priv, Region.hits_farAccess w he admits, fun inside => ?_⟩
  exact absurd (Region.contained_of_farAccess_inside h he hp inside) (by simp [hc])

/-- Settles O8: the class filter spelled out in the bitwise form of the compare. -/
theorem regionMatches : Obligations.RegionMatches := by
  intro r ua priv
  rw [Region.hits_iff, RegionClass.admits_iff]

/-- Settles O10: a region that passes shares the window base's high bits with every access it matches; one that fails
matches its far access, which does not. -/
theorem containmentKeepsAccessesInside : Obligations.ContainmentKeepsAccessesInside := by
  intro r w h
  refine ⟨Region.contained_of_exempted w, fun he hp => ⟨Region.contained_iff w he hp, ?_,
    Region.exists_outside_of_not_contained h he hp⟩⟩
  intro hc ua priv hit
  obtain ⟨low, high⟩ := Region.inside_of_contained h he hp hc hit
  exact ⟨low, high, Window.granule_inside h low high⟩

end Sys2Proof.Machine
end

section
/-! Chapter 1: the three commands on the region table (R11 to R13), with their parameters read back. -/

namespace Sys2Proof.Machine

open Sys2Proof.Safety

/-! ## A frame whose command is executed -/

/-- A command of a quiet owner that passes every test of R161 gives the owner's state with the slot EXECUTING. -/
theorem quiet_judgeFrame_of_executes {code : Byte} {f : Frame} {s : State} (owner : State → State)
    (h : frameExecutes code f s) : quiet s (judgeFrame code f owner) = .next (owner (holding code f s)) := by
  obtain ⟨⟨hlive, -⟩, -⟩ := id h
  rw [quiet_of_live hlive, judgeFrame_of_executes owner h]

theorem holding_regions (code : Byte) (f : Frame) (s : State) : (holding code f s).regions = s.regions := rfl

theorem readRegionData_holding (code : Byte) (f : Frame) (s : State) (i : Fin 12) :
    readRegionData (holding code f s) i = readRegionData s i := rfl

theorem answer_setRegions_holding (code : Byte) (f : Frame) (st : Status) (data : List Byte) (x : RegionMatcher)
    (s : State) :
    answer st data ((holding code f s).setRegions x) = answered f st data { s with regions := x } := rfl

/-! ## Parameters (R11, R12, R185) -/

theorem regionIndex_ofNat (i : Fin 12) : regionIndex (BitVec.ofNat 8 i.val) = some i := by
  revert i
  decide

theorem regionIndex_eq_none_iff (b : Byte) : regionIndex b = none ↔ 12 ≤ b.toNat := by
  simp [regionIndex]

theorem boolOfCode_code (e : Bool) : boolOfCode (Bool.code e) = some e := by
  cases e <;> rfl

theorem boolOfCode_eq_none_iff (b : Byte) : boolOfCode b = none ↔ 2 ≤ b.toNat := by
  unfold boolOfCode
  split <;> grind

theorem RegionClass.ofCode_code (c : RegionClass) : RegionClass.ofCode c.code = some c := by
  cases c <;> rfl

theorem RegionClass.ofCode_eq_none_iff (b : Byte) : RegionClass.ofCode b = none ↔ 3 ≤ b.toNat := by
  unfold RegionClass.ofCode
  split <;> grind

theorem Policy.ofCode_code (p : Policy) : Policy.ofCode p.code = some p := by
  cases p <;> rfl

theorem Policy.ofCode_eq_none_iff (b : Byte) : Policy.ofCode b = none ↔ 4 ≤ b.toNat := by
  unfold Policy.ofCode
  split <;> grind

theorem be16_eq (x : BitVec 16) : be16 x = [x.extractLsb' 8 8, x.extractLsb' 0 8] := by
  have high : BitVec.ofNat 8 (x.toNat / 256) = x.extractLsb' 8 8 := ofNat_div_eq_extractLsb' x 8
  simp only [be16, beBytes, Nat.pow_one, Nat.pow_zero, Nat.div_one, high, ofNat_eq_extractLsb']

theorem ofNat_ofBe_be16 (x : BitVec 16) : BitVec.ofNat 16 (ofBe (be16 x)) = x := by
  apply BitVec.eq_of_toNat_eq
  simp [be16_eq, ofBe, Nat.shiftRight_eq_div_pow]
  omega

/-- WRITE_REGION's parameters, encoded and read back. -/
theorem writeRegionParams_encoded (i : Fin 12) (e : Bool) (base mask : BitVec 16) (c : RegionClass) (p : Policy) :
    writeRegionParams ([BitVec.ofNat 8 i.val, Bool.code e] ++ be16 base ++ be16 mask ++ [c.code, p.code]) =
      some (i, ⟨e, base, mask, c, p⟩) := by
  have hbase := ofNat_ofBe_be16 base
  have hmask := ofNat_ofBe_be16 mask
  rw [be16_eq] at hbase hmask
  simp [writeRegionParams, be16_eq, byteAt, fieldBe, field, regionIndex_ofNat, boolOfCode_code,
    RegionClass.ofCode_code, Policy.ofCode_code, hbase, hmask]

theorem writeRegionParams_eq_none {ps : List Byte} (h : 12 ≤ (byteAt ps 0).toNat ∨ 2 ≤ (byteAt ps 1).toNat ∨
    3 ≤ (byteAt ps 6).toNat ∨ 4 ≤ (byteAt ps 7).toNat) : writeRegionParams ps = none := by
  rw [← regionIndex_eq_none_iff, ← boolOfCode_eq_none_iff, ← RegionClass.ofCode_eq_none_iff,
    ← Policy.ofCode_eq_none_iff] at h
  unfold writeRegionParams
  split
  · simp_all
  · rfl

/-! ## The commands -/

theorem exec_writeRegion_of_params {f : Frame} {s : State} (h : frameExecutes 0x03 f s) {i : Fin 12} {r : Region}
    (hp : writeRegionParams f.params = some (i, r)) : exec (.writeRegion f) s =
      .next (answered f .ok [] { s with regions.staged := s.regions.staged.set i r }) := by
  simp only [exec, execWriteRegion, quiet_judgeFrame_of_executes _ h, hp, holding_regions, answer_setRegions_holding]

theorem exec_writeRegion_of_refused {f : Frame} {s : State} (h : frameExecutes 0x03 f s)
    (hp : writeRegionParams f.params = none) : exec (.writeRegion f) s = .next (answered f .badParam [] s) := by
  simp only [exec, execWriteRegion, quiet_judgeFrame_of_executes _ h, hp, answer_holding]

theorem exec_readRegion_of_index {f : Frame} {s : State} (h : frameExecutes 0x04 f s) {i : Fin 12}
    (hi : regionIndex (byteAt f.params 0) = some i) :
    exec (.readRegion f) s = .next (answered f .ok (readRegionData s i) s) := by
  simp only [exec, execReadRegion, quiet_judgeFrame_of_executes _ h, hi, readRegionData_holding, answer_holding]

theorem exec_readRegion_of_refused {f : Frame} {s : State} (h : frameExecutes 0x04 f s)
    (hi : regionIndex (byteAt f.params 0) = none) :
    exec (.readRegion f) s = .next (answered f .badParam [] s) := by
  simp only [exec, execReadRegion, quiet_judgeFrame_of_executes _ h, hi, answer_holding]

/-- Settles O11: each command through the reading of its parameters. -/
theorem regionEntries : Obligations.RegionEntries := by
  refine ⟨fun f s h => ⟨fun i e base mask c p hps => ?_, fun bad => ?_⟩,
    fun f s h => ⟨fun i hps => ?_, fun bad => ?_⟩⟩
  · exact exec_writeRegion_of_params h (hps ▸ writeRegionParams_encoded i e base mask c p)
  · exact exec_writeRegion_of_refused h (writeRegionParams_eq_none bad)
  · have index : regionIndex (byteAt f.params 0) = some i := hps ▸ regionIndex_ofNat i
    rw [exec_readRegion_of_index h index]
    simp [readRegionData, Region.bytes, beBytes]
  · exact exec_readRegion_of_refused h ((regionIndex_eq_none_iff _).mpr bad)

/-- Settles O12: the owner copies the active table before it answers. -/
theorem revertStaged : Obligations.RevertStaged := by
  intro f s h
  simp only [exec, execRevertStaged, quiet_judgeFrame_of_executes _ h, holding_regions, answer_setRegions_holding]

end Sys2Proof.Machine
end

section
/-! What every command keeps, whatever it does: it answers a next state, leaves the queue and the reset lines alone, and
keeps the memories canonical and the notice list lawful (R46, R173; log 2). -/

namespace Sys2Proof.Machine

open Sys2Proof.Safety

/-- The second state has the first one's reset lines and queue, and keeps the two laws that every update keeps. -/
structure Kept (s t : State) : Prop where
  porn : t.porn = s.porn
  srstn : t.srstn = s.srstn
  pending : t.pending = s.pending
  canonical : MemoriesCanonical s → MemoriesCanonical t
  notices : NoticesLawful s → NoticesLawful t

theorem Inner.kept {s t : State} (h : Inner s t) : Kept s t :=
  ⟨h.porn, h.srstn, h.pending, h.canonical, h.notices⟩

theorem Kept.refl (s : State) : Kept s s := (Inner.refl s).kept

theorem Kept.trans {s t u : State} (h : Kept s t) (k : Kept t u) : Kept s u :=
  ⟨k.porn.trans h.porn, k.srstn.trans h.srstn, k.pending.trans h.pending, k.canonical ∘ h.canonical,
    k.notices ∘ h.notices⟩

/-! ## Writes to the two memories -/

theorem setDmem_kept (s : State) {x : Memory} (h : s.dmem.wf = true → x.wf = true) : Kept s (s.setDmem x) :=
  ⟨rfl, rfl, rfl, fun k => ⟨h k.1, k.2⟩, fun k => ⟨k.1, k.2⟩⟩

theorem setJmem_kept (s : State) {x : Memory} (h : s.jmem.wf = true → x.wf = true) : Kept s (s.setJmem x) :=
  ⟨rfl, rfl, rfl, fun k => ⟨k.1, h k.2⟩, fun k => ⟨k.1, k.2⟩⟩

theorem landJ_kept (b : JBurst) (n : Nat) (s : State) : Kept s (landJ b n s) := by
  unfold landJ
  split
  · exact Kept.refl s
  · exact setJmem_kept s (Memory.wf_writeBytes _ _)

theorem endJ_kept (b : JBurst) (s : State) : Kept s (endJ b s) := (freeJ_inner s).kept.trans (landJ_kept _ _ _)

theorem failJ_kept (b : JBurst) (beats : Fin 4) (s : State) : Kept s (failJ b beats s) :=
  (freeJ_inner s).kept.trans (landJ_kept _ _ _)

theorem carryBeat_kept (a : Access) (ube : BitVec 4) (data : Word) (s : State) : Kept s (carryBeat a ube data s) := by
  unfold carryBeat
  split
  · exact (setDmem_kept s (Memory.wf_writeLanes _ _ _)).trans (answerBeat_inner _ _).kept
  · exact (answerBeat_inner _ s).kept

/-! ## Outcomes -/

theorem quiet_kept {f : State → State} (hf : ∀ s, Kept s (f s)) (s : State) :
    ∃ t, quiet s f = .next t ∧ Kept s t := by
  unfold quiet
  split
  · exact ⟨s, rfl, Kept.refl s⟩
  · exact ⟨_, rfl, (settle_inner s).kept.trans (hf _)⟩

theorem act_kept {f : State → State} (hf : ∀ s, Kept s (f s)) (s : State) : ∃ t, act s f = .next t ∧ Kept s t :=
  quiet_kept (fun s => (hf s).trans (arbitrate_inner _).kept) s

theorem quiet_kept_of_inner {f : State → State} (hf : ∀ s, Inner s (f s)) (s : State) :
    ∃ t, quiet s f = .next t ∧ Kept s t :=
  quiet_kept (fun s => (hf s).kept) s

theorem act_kept_of_inner {f : State → State} (hf : ∀ s, Inner s (f s)) (s : State) :
    ∃ t, act s f = .next t ∧ Kept s t :=
  act_kept (fun s => (hf s).kept) s

theorem actOnClaims_kept_of_inner {f : State → State} (hf : ∀ s, Inner s (f s)) (s : State) :
    ∃ t, actOnClaims s f = .next t ∧ Kept s t := by
  obtain ⟨t, ht, inner⟩ := actOnClaims_inner hf s
  exact ⟨t, ht, inner.kept⟩

theorem quiet_frame_kept {code : Byte} {f : Frame} {owner : State → State} (ho : ∀ s, Inner s (owner s)) (s : State) :
    ∃ t, quiet s (judgeFrame code f owner) = .next t ∧ Kept s t :=
  quiet_kept_of_inner (judgeFrame_inner code f ho) s

theorem act_frame_kept {code : Byte} {f : Frame} {owner : State → State} (ho : ∀ s, Inner s (owner s)) (s : State) :
    ∃ t, act s (judgeFrame code f owner) = .next t ∧ Kept s t :=
  act_kept_of_inner (judgeFrame_inner code f ho) s

/-! ## The upstream access -/

theorem execAccessArrival_kept (ua : BitVec 24) (write burst priv : Bool) (s : State) :
    ∃ t, execAccessArrival ua write burst priv s = .next t ∧ Kept s t := by
  refine act_kept_of_inner (fun s => ?_) s
  split
  · exact Inner.refl s
  · exact arrive_inner _ _ _ _ s

theorem execForwardBeatAck_kept (ube : BitVec 4) (data : Word) (s : State) :
    ∃ t, execForwardBeatAck ube data s = .next t ∧ Kept s t := by
  refine act_kept (fun s => ?_) s
  dsimp only
  split
  · exact Kept.refl s
  · rename_i a _
    refine (carryBeat_kept a ube data s).trans (Inner.kept ?_)
    split
    · exact endAccess_inner _ _
    · split
      · exact answerErr_inner _ _
      · exact setAccess_inner _ _

theorem execForwardDerr_kept (s : State) : ∃ t, execForwardDerr s = .next t ∧ Kept s t := by
  refine act_kept_of_inner (fun s => ?_) s
  split
  · exact Inner.refl s
  · exact answerErr_inner _ s

theorem execOldDataBurstDone_kept (s : State) : ∃ t, execOldDataBurstDone s = .next t ∧ Kept s t := by
  refine act_kept_of_inner (fun s => ?_) s
  dsimp only
  split
  · exact Inner.refl s
  · rename_i a _
    refine ((takeOldBurst_inner a s).trans (freeD_inner _)).trans ?_
    split
    · exact setAccess_inner _ _
    · exact setAccess_inner _ _

theorem execOldDataDerr_kept (s : State) : ∃ t, execOldDataDerr s = .next t ∧ Kept s t := by
  refine act_kept_of_inner (fun s => ?_) s
  split
  · exact Inner.refl s
  · exact (freeD_inner s).trans (failCapture_inner _ _ _ _)

theorem execRecordWriteDone_kept (s : State) : ∃ t, execRecordWriteDone s = .next t ∧ Kept s t := by
  refine act_kept (fun s => ?_) s
  dsimp only
  split
  · exact Kept.refl s
  · rename_i b _
    refine (endJ_kept b s).trans (Inner.kept ?_)
    split
    · split
      · exact recordComplete_inner _ _
      · exact setAccess_inner _ _
    · exact Inner.refl _
    · exact Inner.refl _

theorem execRecordWriteJerr_kept (beats : Fin 4) (s : State) :
    ∃ t, execRecordWriteJerr beats s = .next t ∧ Kept s t := by
  refine act_kept (fun s => ?_) s
  dsimp only
  split
  · exact Kept.refl s
  · rename_i b _
    refine (failJ_kept b beats s).trans (Inner.kept ?_)
    split
    · exact failCapture_inner _ _ _ _
    · exact Inner.refl _
    · exact Inner.refl _

theorem execHoldTimerExpiry_kept (s : State) : ∃ t, execHoldTimerExpiry s = .next t ∧ Kept s t := by
  refine act_kept_of_inner (fun s => ?_) s
  dsimp only
  split
  · exact Inner.refl s
  · split
    · exact ((setAccess_inner _ s).trans (setTransit_inner _ _)).trans (breakEpoch_inner _ _)
    · exact Inner.refl s

/-! ## The journal's own writes and the sweep -/

theorem execMarkerWriteDone_kept (s : State) : ∃ t, execMarkerWriteDone s = .next t ∧ Kept s t := by
  refine act_kept (fun s => ?_) s
  dsimp only
  split
  · exact Kept.refl s
  · rename_i b _
    refine (endJ_kept b s).trans (Inner.kept ?_)
    split
    · split
      · exact markerDone_inner _ _
      · exact setMarker_inner _ _
    all_goals exact Inner.refl _

theorem execMarkerWriteJerr_kept (beats : Fin 4) (s : State) :
    ∃ t, execMarkerWriteJerr beats s = .next t ∧ Kept s t := by
  refine act_kept (fun s => ?_) s
  dsimp only
  split
  · exact Kept.refl s
  · rename_i b _
    refine (failJ_kept b beats s).trans (Inner.kept ((post_inner (.portError .markerWrite b.addr) _).trans ?_))
    split
    · exact markerFailed_inner _ _
    all_goals exact Inner.refl _

theorem execHeaderWriteDone_kept (s : State) : ∃ t, execHeaderWriteDone s = .next t ∧ Kept s t := by
  refine act_kept (fun s => ?_) s
  dsimp only
  split
  · exact Kept.refl s
  · rename_i b _
    refine (endJ_kept b s).trans (Inner.kept ?_)
    split
    · exact Inner.refl _
    · split
      · exact headerDone_inner _ _
      · exact setHeader_inner _ _

theorem execHeaderWriteJerr_kept (beats : Fin 4) (s : State) :
    ∃ t, execHeaderWriteJerr beats s = .next t ∧ Kept s t := by
  refine act_kept (fun s => ?_) s
  dsimp only
  split
  · exact Kept.refl s
  · rename_i b _
    refine (failJ_kept b beats s).trans (Inner.kept ((post_inner (.portError .headerWrite b.addr) _).trans ?_))
    split
    · exact Inner.refl _
    · exact headerFailed_inner _ _

theorem execSweepComplete_kept (s : State) : ∃ t, execSweepComplete s = .next t ∧ Kept s t := by
  refine act_kept_of_inner (fun s => ?_) s
  split
  · exact Inner.refl s
  · exact sweepDone_inner _ s

/-! ## The claims -/

theorem execCommitTaken_kept (s : State) : ∃ t, execCommitTaken s = .next t ∧ Kept s t := by
  refine actOnClaims_kept_of_inner (fun s => ?_) s
  split
  · exact (takeCommit_inner s).trans (boundary_inner _)
  · exact Inner.refl s

theorem execCutTaken_kept (s : State) : ∃ t, execCutTaken s = .next t ∧ Kept s t := by
  refine actOnClaims_kept_of_inner (fun s => ?_) s
  split
  · exact (takeCut_inner s).trans (boundary_inner _)
  · exact Inner.refl s

theorem execRollbackStart_kept (s : State) : ∃ t, execRollbackStart s = .next t ∧ Kept s t := by
  refine actOnClaims_kept_of_inner (fun s => ?_) s
  split
  · exact (takeStart_inner s).trans (boundary_inner _)
  · exact Inner.refl s

/-! ## The walk and the recovery reads -/

theorem execWalkerSlotRead_kept (s : State) : ∃ t, execWalkerSlotRead s = .next t ∧ Kept s t := by
  refine act_kept (fun s => ?_) s
  dsimp only
  split
  · exact Kept.refl s
  · rename_i b _
    refine (endJ_kept b s).trans (Inner.kept ?_)
    split
    · split
      · exact setWalker_inner _ _
      · exact walkSlot_inner _ _
    · exact Inner.refl _

theorem execWalkerReadJerr_kept (s : State) : ∃ t, execWalkerReadJerr s = .next t ∧ Kept s t := by
  refine act_kept_of_inner (fun s => ?_) s
  split
  · exact Inner.refl s
  · split
    · exact (freeJ_inner s).trans (halt_inner _ _ _)
    · exact freeJ_inner s

theorem execWriteBackDone_kept (s : State) : ∃ t, execWriteBackDone s = .next t ∧ Kept s t := by
  refine act_kept (fun s => ?_) s
  dsimp only
  split
  · exact Kept.refl s
  · rename_i addr d _
    refine ((setDmem_kept s (Memory.wf_writeBytes addr d)).trans (freeD_inner _).kept).trans (Inner.kept ?_)
    split
    · split
      · exact endStep_inner _ _
      · exact setWalker_inner _ _
    · exact Inner.refl _

theorem execWriteBackDerr_kept (beats : Fin 4) (s : State) :
    ∃ t, execWriteBackDerr beats s = .next t ∧ Kept s t := by
  refine act_kept (fun s => ?_) s
  dsimp only
  split
  · exact Kept.refl s
  · rename_i addr d _
    refine ((setDmem_kept s (Memory.wf_writeBytes addr (d.take (4 * beats.val)))).trans (freeD_inner _).kept).trans (Inner.kept ?_)
    split
    · exact halt_inner _ _ _
    · exact Inner.refl _

theorem execHeaderCopiesRead_kept (s : State) : ∃ t, execHeaderCopiesRead s = .next t ∧ Kept s t := by
  refine act_kept (fun s => ?_) s
  dsimp only
  split
  · split
    · exact (endJ_kept _ s).trans (setRecovery_inner _ _).kept
    · exact (endJ_kept _ s).trans (copiesRead_inner _ _).kept
  · exact Kept.refl s

theorem execScanSlotRead_kept (s : State) : ∃ t, execScanSlotRead s = .next t ∧ Kept s t := by
  refine act_kept (fun s => ?_) s
  dsimp only
  split
  · split
    · exact (endJ_kept _ s).trans (setRecovery_inner _ _).kept
    · exact (endJ_kept _ s).trans (scanSlot_inner _ _ _ _).kept
  · exact Kept.refl s

theorem execMapLoadRead_kept (s : State) : ∃ t, execMapLoadRead s = .next t ∧ Kept s t := by
  refine act_kept (fun s => ?_) s
  dsimp only
  split
  · split
    · exact (endJ_kept _ s).trans (setRecovery_inner _ _).kept
    · exact (endJ_kept _ s).trans (loadSlot_inner _ _ _ _ _).kept
  · exact Kept.refl s

theorem execRecoveryReadJerr_kept (s : State) : ∃ t, execRecoveryReadJerr s = .next t ∧ Kept s t := by
  refine act_kept_of_inner (fun s => ?_) s
  split
  · exact Inner.refl s
  · split
    · exact (freeJ_inner s).trans (recoverFail_inner _ _)
    · exact freeJ_inner s

theorem execReadSlotDone_kept (s : State) : ∃ t, execReadSlotDone s = .next t ∧ Kept s t := by
  refine act_kept (fun s => ?_) s
  dsimp only
  split
  · rename_i b j _ _
    refine (endJ_kept b s).trans (Inner.kept ?_)
    split
    · exact setJournal_inner _ _
    · exact (endReadSlot_inner _).trans (answer_inner _ _ _)
  · exact Kept.refl s

theorem execReadSlotJerr_kept (s : State) : ∃ t, execReadSlotJerr s = .next t ∧ Kept s t := by
  refine act_kept_of_inner (fun s => ?_) s
  split
  · exact Inner.refl s
  · exact ((freeJ_inner s).trans (endReadSlot_inner _)).trans (answer_inner _ _ _)

/-! ## The link and its commands -/

theorem execTransactionStart_kept (s : State) : ∃ t, execTransactionStart s = .next t ∧ Kept s t := by
  refine quiet_kept_of_inner (fun s => ?_) s
  split
  · exact setLink_inner s _
  all_goals exact Inner.refl s

theorem execLengthOverrun_kept (code tag len : Byte) (s : State) :
    ∃ t, execLengthOverrun code tag len s = .next t ∧ Kept s t := by
  refine quiet_kept_of_inner (fun s => ?_) s
  dsimp only
  split
  · split
    · exact setLink_inner s _
    · exact setLink_inner s _
  · exact Inner.refl s

theorem execSetPolicy_kept (f : Frame) (s : State) : ∃ t, execSetPolicy f s = .next t ∧ Kept s t := by
  refine quiet_frame_kept (fun s => ?_) s
  split
  · exact answer_inner _ _ s
  · refine Inner.trans ?_ (answer_inner _ _ _)
    exact ((setTransit_inner s _).trans (setJournal_inner _ _)).trans ⟨rfl, rfl, rfl, rfl, rfl, fun h => ⟨h.1, h.2⟩⟩

theorem execWriteRegion_kept (f : Frame) (s : State) : ∃ t, execWriteRegion f s = .next t ∧ Kept s t := by
  refine quiet_frame_kept (fun s => ?_) s
  dsimp only
  split
  · exact answer_inner _ _ s
  · exact (setRegions_inner s _).trans (answer_inner _ _ _)

theorem execReadRegion_kept (f : Frame) (s : State) : ∃ t, execReadRegion f s = .next t ∧ Kept s t := by
  refine quiet_frame_kept (fun s => ?_) s
  split
  · exact answer_inner _ _ s
  · exact answer_inner _ _ s

theorem execCommitRegions_kept (f : Frame) (s : State) : ∃ t, execCommitRegions f s = .next t ∧ Kept s t := by
  refine act_frame_kept (fun s => ?_) s
  split
  · exact claimCommit_inner s
  · exact validateCommit_inner s
  · exact validateCommit_inner s
  all_goals exact answer_inner _ _ s

theorem execFormat_kept (f : Frame) (s : State) : ∃ t, execFormat f s = .next t ∧ Kept s t := by
  refine act_frame_kept (fun s => ?_) s
  split
  · exact answer_inner _ _ s
  · exact acceptFormat_inner _ s

theorem execRecover_kept (f : Frame) (s : State) : ∃ t, execRecover f s = .next t ∧ Kept s t := by
  refine act_frame_kept (fun s => ?_) s
  split
  · exact acceptRecover_inner s
  all_goals exact answer_inner _ _ s

theorem execCheckpoint_kept (f : Frame) (s : State) : ∃ t, execCheckpoint f s = .next t ∧ Kept s t := by
  refine act_frame_kept (fun s => ?_) s
  split
  · exact answer_inner _ _ s
  · exact ((answer_inner _ _ s).trans (claimCut_inner _ _)).trans (claimed_inner _)

theorem execRelease_kept (f : Frame) (s : State) : ∃ t, execRelease f s = .next t ∧ Kept s t := by
  refine act_frame_kept (fun s => ?_) s
  split
  · exact answer_inner _ _ s
  · exact takeRelease_inner _ s

theorem execRollback_kept (f : Frame) (s : State) : ∃ t, execRollback f s = .next t ∧ Kept s t := by
  refine act_frame_kept (fun s => ?_) s
  split
  · exact answer_inner _ _ s
  · exact acceptRollback_inner _ s

theorem execAbort_kept (f : Frame) (s : State) : ∃ t, execAbort f s = .next t ∧ Kept s t := by
  refine act_frame_kept (fun s => ?_) s
  dsimp only
  split
  · split
    · exact (setHeader_inner _ s).trans (halt_inner _ _ _)
    · exact setWalker_inner _ s
    · exact setWalker_inner _ s
    all_goals exact answer_inner _ _ s
  · exact answer_inner _ _ s

theorem execReadEpochs_kept (f : Frame) (s : State) : ∃ t, execReadEpochs f s = .next t ∧ Kept s t := by
  refine quiet_frame_kept (fun s => ?_) s
  split
  · exact answer_inner _ _ s
  · exact answer_inner _ _ s

/-- The oldest notice taken off a lawful list leaves a lawful one. -/
theorem NoticesLawful.of_tail {s : State} {e : NoticeEntry} {t : List NoticeEntry} (h : s.notices.list = e :: t)
    (law : NoticesLawful s) : NoticesLawful (s.setNotices { s.notices with list := t }) := by
  obtain ⟨oneOfAKind, counts⟩ := law
  rw [h] at oneOfAKind counts
  exact ⟨(List.nodup_cons.mp oneOfAKind).2, fun x hx => counts x (List.mem_cons_of_mem _ hx)⟩

theorem execReadNotice_kept (f : Frame) (s : State) : ∃ t, execReadNotice f s = .next t ∧ Kept s t := by
  refine quiet_frame_kept (fun s => ?_) s
  dsimp only
  split
  · exact answer_inner _ _ s
  · rename_i h
    refine Inner.trans (t := s.setNotices _) ?_ (answer_inner _ _ _)
    exact ⟨rfl, rfl, rfl, rfl, rfl, NoticesLawful.of_tail h⟩

theorem execReadSlot_kept (f : Frame) (s : State) : ∃ t, execReadSlot f s = .next t ∧ Kept s t := by
  refine act_frame_kept (fun s => ?_) s
  dsimp only
  split
  · exact answer_inner _ _ s
  · split
    · exact setJournal_inner s _
    · exact answer_inner _ _ s

/-! ## Every command -/

/-- The four commands of the reset lines (R41, R46). -/
def movesResetLine (c : Instr) : Bool :=
  match c with
  | .powerOnReset _ _ | .systemReset | .srstnDeasserted | .pornDeasserted => true
  | _ => false

/-- What one step of any other command keeps. -/
theorem exec_kept {c : Instr} (h : movesResetLine c = false) (s : State) : ∃ t, exec c s = .next t ∧ Kept s t := by
  cases c with
  | powerOnReset | systemReset | srstnDeasserted | pornDeasserted => cases h
  | accessArrival ua write burst priv => exact execAccessArrival_kept ua write burst priv s
  | forwardBeatAck ube data => exact execForwardBeatAck_kept ube data s
  | forwardDerr => exact execForwardDerr_kept s
  | oldDataBurstDone => exact execOldDataBurstDone_kept s
  | oldDataDerr => exact execOldDataDerr_kept s
  | recordWriteDone => exact execRecordWriteDone_kept s
  | recordWriteJerr beats => exact execRecordWriteJerr_kept beats s
  | markerWriteDone => exact execMarkerWriteDone_kept s
  | markerWriteJerr beats => exact execMarkerWriteJerr_kept beats s
  | headerWriteDone => exact execHeaderWriteDone_kept s
  | headerWriteJerr beats => exact execHeaderWriteJerr_kept beats s
  | sweepComplete => exact execSweepComplete_kept s
  | timeBaseTick => exact quiet_kept_of_inner (fun s => setTransit_inner s _) s
  | holdTimerExpiry => exact execHoldTimerExpiry_kept s
  | commitTaken => exact execCommitTaken_kept s
  | cutTaken => exact execCutTaken_kept s
  | rollbackStart => exact execRollbackStart_kept s
  | walkerSlotRead => exact execWalkerSlotRead_kept s
  | walkerReadJerr => exact execWalkerReadJerr_kept s
  | writeBackDone => exact execWriteBackDone_kept s
  | writeBackDerr beats => exact execWriteBackDerr_kept beats s
  | headerCopiesRead => exact execHeaderCopiesRead_kept s
  | scanSlotRead => exact execScanSlotRead_kept s
  | mapLoadRead => exact execMapLoadRead_kept s
  | recoveryReadJerr => exact execRecoveryReadJerr_kept s
  | readSlotDone => exact execReadSlotDone_kept s
  | readSlotJerr => exact execReadSlotJerr_kept s
  | transactionStart => exact execTransactionStart_kept s
  | transactionEnd => exact quiet_kept_of_inner (fun s => setLink_inner s _) s
  | responseDelivered => exact quiet_kept_of_inner (fun s => setLink_inner s _) s
  | lengthOverrun code tag len => exact execLengthOverrun_kept code tag len s
  | unknownCommandFrame code f => exact quiet_frame_kept (answer_inner _ _) s
  | identify f => exact quiet_frame_kept (answer_inner _ _) s
  | getStatus f => exact quiet_frame_kept (fun s => answer_inner _ _ s) s
  | writeRegion f => exact execWriteRegion_kept f s
  | readRegion f => exact execReadRegion_kept f s
  | commitRegions f => exact execCommitRegions_kept f s
  | revertStaged f => exact quiet_frame_kept (fun s => (setRegions_inner s _).trans (answer_inner _ _ _)) s
  | setPolicy f => exact execSetPolicy_kept f s
  | format f => exact execFormat_kept f s
  | recover f => exact execRecover_kept f s
  | checkpoint f => exact execCheckpoint_kept f s
  | release f => exact execRelease_kept f s
  | rollback f => exact execRollback_kept f s
  | abort f => exact execAbort_kept f s
  | readEpochs f => exact execReadEpochs_kept f s
  | readNotice f => exact execReadNotice_kept f s
  | readSlot f => exact execReadSlot_kept f s

/-! ## The reset lines -/

theorem resetDmem_wf (d : Fin 4) {s : State} (h : s.dmem.wf = true) : (resetDmem d s).wf = true := by
  unfold resetDmem
  split
  · exact h
  · exact h
  · exact Memory.wf_writeBytes _ _ h

theorem resetJmem_wf (j : Fin 4) {s : State} (h : s.jmem.wf = true) : (resetJmem j s).wf = true := by
  unfold resetJmem
  split
  · exact h
  · split
    · exact h
    · exact Memory.wf_writeBytes _ _ h

theorem exec_systemReset_kept (s : State) : ∃ t, exec .systemReset s = .next t ∧ Kept (s.setSrstn true) t := by
  have answers : exec .systemReset s =
      .next (if s.porn then s.setSrstn true else arbitrate (abandon (s.setSrstn true))) := rfl
  refine ⟨_, answers, ?_⟩
  split
  · exact Kept.refl _
  · exact ((abandon_inner _).trans (arbitrate_inner _)).kept

/-- Settles O2: the four commands of the reset lines by what they set, all others by what every command keeps. -/
theorem everyCommandAnswers : Obligations.EveryCommandAnswers := by
  intro c s
  cases h : movesResetLine c with
  | false =>
    obtain ⟨t, answers, kept⟩ := exec_kept h s
    refine ⟨t, answers, kept.pending, ?_, ?_⟩
    · rw [kept.porn]
      cases c <;> first | rfl | cases h
    · rw [kept.srstn]
      cases c <;> first | rfl | cases h
  | true =>
    cases c
    case powerOnReset j d => exact ⟨_, rfl, rfl, rfl, rfl⟩
    case systemReset =>
      obtain ⟨t, answers, kept⟩ := exec_systemReset_kept s
      exact ⟨t, answers, kept.pending, kept.porn, kept.srstn⟩
    case srstnDeasserted => exact ⟨_, rfl, rfl, rfl, rfl⟩
    case pornDeasserted => exact ⟨_, rfl, rfl, rfl, rfl⟩
    all_goals cases h

/-- Both laws over the commands of the reset lines and every other one. -/
theorem exec_lawful {c : Instr} {s t : State} (h : exec c s = .next t) :
    (MemoriesCanonical s → MemoriesCanonical t) ∧ (NoticesLawful s → NoticesLawful t) := by
  cases hc : movesResetLine c with
  | false =>
    obtain ⟨u, answers, kept⟩ := exec_kept hc s
    obtain rfl : u = t := by simpa [answers] using h
    exact ⟨kept.canonical, kept.notices⟩
  | true =>
    cases c
    case powerOnReset j d =>
      obtain rfl : powerOn j d s = t := Host.Outcome.next.inj h
      exact ⟨fun law => ⟨resetDmem_wf d law.1, resetJmem_wf j law.2⟩, fun _ => ⟨List.nodup_nil, nofun⟩⟩
    case systemReset =>
      obtain ⟨u, answers, kept⟩ := exec_systemReset_kept s
      obtain rfl : u = t := by simpa [answers] using h
      exact ⟨fun law => kept.canonical ⟨law.1, law.2⟩, fun law => kept.notices ⟨law.1, law.2⟩⟩
    case srstnDeasserted =>
      obtain rfl : s.setSrstn false = t := Host.Outcome.next.inj h
      exact ⟨fun law => ⟨law.1, law.2⟩, fun law => ⟨law.1, law.2⟩⟩
    case pornDeasserted =>
      obtain rfl : s.setPorn false = t := Host.Outcome.next.inj h
      exact ⟨fun law => ⟨law.1, law.2⟩, fun law => ⟨law.1, law.2⟩⟩
    all_goals cases hc

/-- A law that does not read the queue, and that every command keeps, is kept by every step. -/
theorem step_keeps {P : State → Prop} (queue : ∀ (s : State) (q : List Instr), P s → P (s.setPending q))
    (each : ∀ (c : Instr) (s t : State), P s → exec c s = .next t → P t) {s t : State} (hs : P s)
    (h : step s = .next t) : P t := by
  unfold step at h
  split at h
  · obtain rfl : s = t := by simpa using h
    exact hs
  · exact each _ _ t (queue s _ hs) h

/-- Settles O56: every command keeps both memories canonical. -/
theorem memoriesStayCanonical : Obligations.MemoriesStayCanonical := fun _ _ law h =>
  step_keeps (P := MemoriesCanonical) (fun _ _ law => ⟨law.1, law.2⟩) (fun _ _ _ law h => (exec_lawful h).1 law) law h

/-- Settles O57: every command keeps the notice list lawful. -/
theorem noticesStayLawful : Obligations.NoticesStayLawful := fun _ _ law h =>
  step_keeps (P := NoticesLawful) (fun _ _ law => ⟨law.1, law.2⟩) (fun _ _ _ law h => (exec_lawful h).2 law) law h

/-- Settles O1: by the definition of a step. -/
theorem stepRunsFrontCommand : Obligations.StepRunsFrontCommand := by
  refine ⟨fun s c rest h => ?_, fun s h => ?_⟩
  · unfold step
    rw [h]
    rfl
  · unfold step
    rw [h]

end Sys2Proof.Machine
end

section
/-! The reset lines, the claims left over, and the access boundary (R39 to R42, R46; logs 5, 7, 8, 10, 12, 20). -/

namespace Sys2Proof.Machine

open Sys2Proof.Safety

/-- Settles O3: each value is that of the power-on record of its block. -/
theorem resetValues : Obligations.ResetValues := by
  unfold Obligations.ResetValues
  decide

/-! ## PORn -/

theorem quiet_of_porn {s : State} (h : s.porn = true) (f : State → State) : quiet s f = .next s := by
  simp [quiet, h]

theorem actOnClaims_of_porn {s : State} (h : s.porn = true) (f : State → State) : actOnClaims s f = .next s := by
  simp [actOnClaims, h]

/-- A power-on reset with the two memories it leaves written out. -/
theorem powerOn_eq (j d : Fin 4) (s : State) : powerOn j d s =
    { State.reset with
      porn := true
      srstn := s.srstn
      maps := ⟨⟨.dirty, s.maps.m0.bits⟩, ⟨.dirty, s.maps.m1.bits⟩, none, none, none⟩
      dmem := match s.dport.burst with
        | some (.walker addr data) => s.dmem.writeBytes addr (data.take (4 * d.val))
        | _ => s.dmem
      jmem := match s.journal.jport.burst with
        | some ⟨_, addr, some data, _⟩ => s.jmem.writeBytes addr (data.take (4 * j.val))
        | _ => s.jmem
      fresh := s.fresh
      pending := s.pending } := by
  unfold powerOn resetDmem resetJmem CaptureMaps.powerOn
  rcases s.dport.burst with _ | _ | ⟨addr, data⟩ <;> rcases s.journal.jport.burst with _ | ⟨_, _, _ | _, _⟩ <;> rfl

/-- The commands that take a claim (log 7). -/
def takesClaim (c : Instr) : Bool :=
  match c with
  | .commitTaken | .cutTaken | .rollbackStart => true
  | _ => false

theorem act_is_quiet (f : State → State) : ∃ g, ∀ s, act s f = quiet s g := ⟨fun s => arbitrate (f s), fun _ => rfl⟩

/-- Every command but those of the reset lines and the claims has its effect after the claims left over. -/
theorem exec_is_quiet {c : Instr} (h1 : movesResetLine c = false) (h2 : takesClaim c = false) :
    ∃ f, ∀ s, exec c s = quiet s f := by
  cases c
  case powerOnReset | systemReset | srstnDeasserted | pornDeasserted => cases h1
  case commitTaken | cutTaken | rollbackStart => cases h2
  case timeBaseTick | transactionStart | transactionEnd | responseDelivered | lengthOverrun | unknownCommandFrame
    | identify | getStatus | setPolicy | writeRegion | readRegion | revertStaged | readEpochs | readNotice =>
    simp only [exec]
    exact ⟨_, fun _ => rfl⟩
  all_goals
    simp only [exec]
    exact act_is_quiet _

/-- While PORn stays asserted a command of any other kind idles (log 5). -/
theorem exec_of_porn {c : Instr} {s : State} (h : s.porn = true) (hc : movesResetLine c = false) :
    exec c s = .next s := by
  cases h2 : takesClaim c with
  | true =>
    cases c
    case commitTaken | cutTaken | rollbackStart => exact actOnClaims_of_porn h _
    all_goals cases h2
  | false =>
    obtain ⟨f, effect⟩ := exec_is_quiet hc h2
    rw [effect, quiet_of_porn h]

/-- Settles O4: PORn by `powerOn_eq`, the other lines by their definitions, everything else by `exec_of_porn`. -/
theorem resetLines : Obligations.ResetLines := by
  refine ⟨fun j d s => congrArg _ (powerOn_eq j d s), fun c s h => ?_, fun s => ⟨rfl, rfl⟩⟩
  cases c
  case powerOnReset => trivial
  case pornDeasserted | srstnDeasserted => rfl
  case systemReset => exact congrArg _ (if_pos h)
  all_goals exact exec_of_porn h rfl

/-! ## SRSTn (R41, R42) -/

theorem recordCapture_transit (a : Nat) (s : State) : (recordCapture a s).transit = s.transit := rfl

theorem disownJ_transit (c : JClient) (s : State) : (disownJ c s).transit = s.transit := by
  rw [disownJ_eq]

theorem settleAbandoned_transit (a : Access) (s : State) : (settleAbandoned a s).transit = s.transit := by
  unfold settleAbandoned
  split
  · rfl
  · split <;> rfl
  · split
    · exact disownJ_transit _ _
    · exact disownJ_transit _ _
  · split <;> rfl
  all_goals rfl

/-- SYSTEM_RESET abandons the access in progress and takes a claim that waits alone. -/
theorem exec_systemReset_of_access {s : State} {a : Access} (hp : s.porn = false) (ha : s.transit.access = some a) :
    exec .systemReset s = .next (arbitrate (claimTaken (accessOver s.transit.answers
      (settleAbandoned a { s with srstn := true })))) := by
  have reset : exec .systemReset s = .next (arbitrate (abandon (s.setSrstn true))) := congrArg _ (if_neg (by simp [hp]))
  have access : (s.setSrstn true).transit.access = some a := ha
  rw [reset]
  unfold abandon
  rw [access]
  dsimp only
  rw [boundary_eq, dropAccess_eq, settleAbandoned_transit]
  rfl

theorem accessOver_claims (beats : List UBeat) (s : State) :
    (accessOver beats s).transit.claims = s.transit.claims := rfl

/-- What of an abandoned access stands, by its transit state (R42). -/
theorem settleAbandoned_of_idle {a : Access} (s : State)
    (h : a.stage = .forward ∨ a.stage = .waitSpace ∨ a.stage = .waitHeader ∨ a.stage = .answer) :
    settleAbandoned a s = s := by
  rcases h with h | h | h | h <;> simp [settleAbandoned, h]

theorem settleAbandoned_of_readOld {a : Access} (s : State) (h : a.stage = .readOld) (hs : a.slot.isSome) :
    settleAbandoned a s = slotBack s := by
  simp [settleAbandoned, h, hs, returnSlot_eq]

theorem settleAbandoned_of_writeRecord {a : Access} (s : State) (h : a.stage = .writeRecord) (hs : a.slot.isSome) :
    settleAbandoned a s = slotBack (disownJ .record s) := by
  simp [settleAbandoned, h, hs, returnSlot_eq]

theorem settleAbandoned_of_waitMarker {a : Access} (s : State) (h : a.stage = .waitMarker) :
    settleAbandoned a s = if a.slot.isSome then recordCapture (byteAddr a.ua) s else s := by
  simp [settleAbandoned, h]

/-- A burst of another claimant, or none, is left alone. -/
theorem disownJ_of_other {c : JClient} {s : State} (h : s.journal.jport.burst.all fun b => decide (b.client ≠ c)) :
    disownJ c s = s := by
  unfold disownJ
  split
  · rfl
  · rename_i b hb
    rw [hb] at h
    exact if_neg (by simpa using h)

theorem disownJ_of_owner {c : JClient} {s : State} {b : JBurst} (h : s.journal.jport.burst = some b)
    (hc : b.client = c) : disownJ c s = { s with journal.jport.burst := some { b with live := false } } := by
  unfold disownJ
  rw [h]
  exact if_pos hc

/-- Settles O5: by what the transit state leaves of the access. -/
theorem systemResetAbandons : Obligations.SystemResetAbandons := by
  refine fun s => ⟨fun hp ha => ?_, fun a ⟨hp, ha, hc⟩ => ?_⟩
  · have reset : exec .systemReset s = .next (arbitrate (abandon (s.setSrstn true))) :=
      congrArg _ (if_neg (by simp [hp]))
    rw [reset, abandon, State.transit_setSrstn, ha]
    rfl
  · have ends : exec .systemReset s = .next (arbitrate (accessOver s.transit.answers
        (settleAbandoned a { s with srstn := true }))) := by
      rw [exec_systemReset_of_access hp ha, claimTaken_of_no_claim]
      rw [accessOver_claims, settleAbandoned_transit]
      exact hc
    intro r ends'
    rw [ends]
    refine ⟨fun h => ?_, fun h hs => ?_, fun h hs hb => ?_, fun b h hs hb hcl => ?_, fun h hs => ?_, fun h hs => ?_⟩
    · rw [settleAbandoned_of_idle _ h]
    · rw [settleAbandoned_of_readOld _ h hs]
    · rw [settleAbandoned_of_writeRecord _ h hs, disownJ_of_other (by exact hb)]
    · rw [settleAbandoned_of_writeRecord _ h hs, disownJ_of_owner (by exact hb) hcl]
    · rw [settleAbandoned_of_waitMarker _ h, if_pos hs]
    · rw [settleAbandoned_of_waitMarker _ h, if_neg (by simp [hs])]

/-! ## Claims left over (log 7) -/

theorem grantD_transit (s : State) : (grantD s).transit = s.transit := by
  unfold grantD
  split
  · rfl
  · split <;> rfl

theorem grantJ_transit (s : State) : (grantJ s).transit = s.transit := by
  unfold grantJ
  split
  · rfl
  · split <;> rfl

theorem arbitrate_transit (s : State) : (arbitrate s).transit = s.transit :=
  (grantJ_transit _).trans (grantD_transit s)

theorem takeLeftover_claims (s : State) : (takeLeftover s).transit.claims = Claims.none := by
  unfold takeLeftover
  split
  · split <;> simp only [takeStart_claims, takeCut_claims, takeCommit_claims] <;> rfl
  · simp only [takeStart_claims, takeCut_claims, takeCommit_claims]
    rfl

theorem settle_claims {s : State} (ha : s.transit.access = none) (hc : s.transit.claims ≠ Claims.none) :
    (settle s).transit.claims = Claims.none := by
  unfold settle
  rw [if_pos ⟨by simp [ha], hc⟩, arbitrate_transit, takeLeftover_claims]

/-- A command other than the claims' own and the reset lines' finds the claims left over taken. -/
theorem exec_settle {c : Instr} (h1 : movesResetLine c = false) (h2 : takesClaim c = false) {s : State}
    (hp : s.porn = false) (h : (settle s).transit.claims = Claims.none) : exec c s = exec c (settle s) := by
  obtain ⟨f, effect⟩ := exec_is_quiet h1 h2
  have hp' : (settle s).porn = false := (settle_inner s).porn.trans hp
  simp [effect, quiet, hp, hp', settle_of_settled (s := settle s) fun _ => h]

theorem takeLeftover_of_no_commit {s : State} (h : s.transit.claims.commit = false) :
    takeLeftover s = takeStart (takeCut s) := by
  simp [takeLeftover, h, takeCommit_of_not_waiting h]

theorem takeLeftover_of_commit_alone {s : State} (h1 : s.transit.claims.cut = none)
    (h2 : s.transit.claims.start = none) : takeLeftover s = takeCommit s := by
  unfold takeLeftover
  rw [if_neg (by simp [h1, h2]), takeCut_of_not_waiting (by simp [takeCommit_claims, h1]),
    takeStart_of_not_waiting (by simp [takeCommit_claims, h2])]

theorem takeLeftover_of_commit_beside {s : State} (h1 : s.transit.claims.commit = true)
    (h2 : s.transit.claims.cut.isSome ∨ s.transit.claims.start.isSome) :
    takeLeftover s = takeStart (takeCut (takeCommit (nextFresh s))) ∨
      takeLeftover s = takeCommit (takeStart (takeCut (nextFresh s))) := by
  unfold takeLeftover
  rw [if_pos (by simpa [h1] using h2)]
  split
  · exact .inl rfl
  · exact .inr rfl

/-- Settles O6: which claims are taken, that none is left then, and that a command settles them first. -/
theorem leftoverClaims : Obligations.LeftoverClaims := by
  refine ⟨fun c s hp ha hc => ⟨settle_claims ha hc, ?_⟩, fun s ha hc => ?_,
    fun s ua write burst priv hlive h => ?_⟩
  · cases c
    case powerOnReset | pornDeasserted | systemReset | srstnDeasserted | commitTaken | cutTaken | rollbackStart =>
      trivial
    all_goals exact exec_settle rfl rfl hp (settle_claims ha hc)
  · have settles : settle s = arbitrate (takeLeftover s) := if_pos ⟨by simp [ha], hc⟩
    refine ⟨fun h => ?_, fun h1 h2 => ?_, fun h1 h2 => ?_⟩
    · rw [settles, takeLeftover_of_no_commit h]
    · rw [settles, takeLeftover_of_commit_alone h1 h2]
    · rw [settles]
      exact (takeLeftover_of_commit_beside h1 h2).imp (congrArg _) (congrArg _)
  · show execAccessArrival ua write burst priv s = _
    unfold execAccessArrival
    rw [act_of_live hlive, if_pos h]

/-! ## The access boundary (R39) -/

/-- DERR on a forward ends the access with UERR. -/
theorem exec_forwardDerr {s : State} {a : Access} (hp : s.porn = false) (ha : s.transit.access = some a)
    (hs : a.stage = .forward) (hb : s.dport.burst = some .transit) :
    exec .forwardDerr s = .next (arbitrate (claimTaken (accessOver (s.transit.answers ++ [errBeat a.write]) s))) := by
  show execForwardDerr s = _
  unfold execForwardDerr
  rw [act_of_live (live_of_access hp ha), forwarding_of_onD ha hs hb]
  dsimp only
  rw [answerErr_eq]

/-- A beat of a forward is carried; what follows depends on which beat it is (R24, R37, R38). -/
theorem exec_forwardBeatAck {s : State} {a : Access} (hp : s.porn = false) (ha : s.transit.access = some a)
    (hs : a.stage = .forward) (hb : s.dport.burst = some .transit) (ube : BitVec 4) (data : Word) :
    exec (.forwardBeatAck ube data) s = .next (arbitrate
      (if a.acked + 1 = beatsOf a.burst then
        endAccess (a.write && a.result.action.marks) (Safety.beatCarried a ube data s)
      else if a.cut = .afterBeat then answerErr a.write (Safety.beatCarried a ube data s)
      else setAccess { a with acked := a.acked + 1 } (Safety.beatCarried a ube data s))) := by
  show execForwardBeatAck ube data s = _
  unfold execForwardBeatAck
  rw [act_of_live (live_of_access hp ha), forwarding_of_onD ha hs hb]
  dsimp only
  rw [carryBeat_eq]

theorem endAccess_false_eq (s : State) : endAccess false s = claimTaken (accessOver s.transit.answers s) := by
  unfold endAccess
  rw [if_neg (by simp), boundary_eq, dropAccess_eq]

/-- A capture that fails on the part's own transfer gives its slot back and is answered UERR (R36). -/
theorem failCapture_eq (a : Access) (op : PortOperation) (addr : Nat) (s : State) : failCapture a op addr s =
    claimTaken (accessOver (s.transit.answers ++ [errBeat a.write]) (post (.portError op addr) (slotBack s))) := by
  unfold failCapture
  rw [answerErr_eq, returnSlot_eq, post_eq]
  rfl

theorem exec_oldDataDerr {s : State} {a : Access} (hp : s.porn = false) (ha : s.transit.access = some a)
    (hs : a.stage = .readOld) (hb : s.dport.burst = some .transit) :
    exec .oldDataDerr s = .next (arbitrate (claimTaken (accessOver (s.transit.answers ++ [errBeat a.write])
      (post (.portError .oldDataRead (granuleOf (4 * a.ua.toNat) + 16 * a.oldBursts))
        (slotBack { s with dport.burst := none }))))) := by
  show execOldDataDerr s = _
  unfold execOldDataDerr
  rw [act_of_live (live_of_access hp ha), readingOld_of_onD ha hs hb]
  dsimp only
  rw [failCapture_eq]
  rfl

theorem writingRecord_of_access {s : State} {a : Access} (ha : s.transit.access = some a)
    (hs : a.stage = .writeRecord) : writingRecord s = some a := by
  unfold writingRecord
  rw [ha]
  exact if_pos hs

theorem exec_recordWriteJerr {s : State} {a : Access} (hp : s.porn = false) (ha : s.transit.access = some a)
    (hs : a.stage = .writeRecord) {addr : Nat} {data : List Byte}
    (hb : s.journal.jport.burst = some ⟨.record, addr, some data, true⟩) (beats : Fin 4) :
    exec (.recordWriteJerr beats) s = .next (arbitrate (claimTaken
      (accessOver (s.transit.answers ++ [errBeat a.write])
        (post (.portError .recordWrite addr) (slotBack (landed addr (data.take (4 * beats.val)) s)))))) := by
  have hlive := live_of_access hp ha
  show execRecordWriteJerr beats s = _
  unfold execRecordWriteJerr
  rw [act_of_live hlive, jOwned_of_write ⟨hlive, hb⟩]
  dsimp only
  rw [failJ_of_write, writingRecord_of_access (s := landed addr _ s) ha hs]
  dsimp only
  rw [failCapture_eq]
  rfl

/-- A claim that waits alone is taken by its own command. -/
theorem exec_commitTaken_alone {s : State} (hp : s.porn = false) (ha : s.transit.access = none)
    (hc : s.transit.claims = ⟨true, none, none⟩) : exec .commitTaken s = .next (arbitrate (claimTaken s)) := by
  have left : (takeCommit s).transit.claims = Claims.none := by rw [takeCommit_claims, hc]; rfl
  rw [exec_commitTaken hp ha (by rw [hc]), claimTaken_of_no_claim left, claimTaken, hc]

theorem exec_cutTaken_alone {s : State} (hp : s.porn = false) (ha : s.transit.access = none) {b : CutBy}
    (hc : s.transit.claims = ⟨false, some b, none⟩) : exec .cutTaken s = .next (arbitrate (claimTaken s)) := by
  have left : (takeCut s).transit.claims = Claims.none := by rw [takeCut_claims, hc]; rfl
  rw [exec_cutTaken hp ha (by rw [hc]; rfl), claimTaken_of_no_claim left, claimTaken, hc]

theorem exec_rollbackStart_alone {s : State} (hp : s.porn = false) (ha : s.transit.access = none) {k : Word}
    (hc : s.transit.claims = ⟨false, none, some k⟩) :
    exec .rollbackStart s = .next (arbitrate (claimTaken s)) := by
  have left : (takeStart s).transit.claims = Claims.none := by rw [takeStart_claims, hc]; rfl
  rw [exec_rollbackStart hp ha (by rw [hc]; rfl), claimTaken_of_no_claim left, claimTaken, hc]

/-- Settles O7: each command as the end of an access by `boundary_eq`, each claim alone by its own command. -/
theorem boundaryTakesTheClaim : Obligations.BoundaryTakesTheClaim := by
  unfold Obligations.BoundaryTakesTheClaim
  dsimp only
  refine ⟨fun s hp ha => ⟨exec_commitTaken_alone hp ha, fun b => exec_cutTaken_alone hp ha,
    fun k => exec_rollbackStart_alone hp ha⟩, fun s a hp ha =>
    ⟨fun hs hb => ⟨exec_forwardDerr hp ha hs hb, fun ube data => ⟨fun last unmarked => ?_, fun middle cut => ?_⟩⟩,
      exec_oldDataDerr hp ha, fun addr data beats hs hb => exec_recordWriteJerr hp ha hs hb beats, ?_⟩⟩
  · rw [exec_forwardBeatAck hp ha hs hb, if_pos last, unmarked, endAccess_false_eq]
  · rw [exec_forwardBeatAck hp ha hs hb, if_neg (by omega), if_pos cut, answerErr_eq]
  · have abandons {x : State} (h : settleAbandoned a { s with srstn := true } = x) : exec .systemReset s =
        .next (arbitrate (claimTaken (accessOver s.transit.answers x))) := by
      rw [exec_systemReset_of_access hp ha, h]
    exact ⟨fun h => abandons (settleAbandoned_of_idle _ h),
      fun h hs => abandons (settleAbandoned_of_readOld _ h hs),
      fun h hs => abandons (settleAbandoned_of_writeRecord _ h hs),
      fun h hs => abandons ((settleAbandoned_of_waitMarker _ h).trans (if_pos hs)),
      fun h hs => abandons ((settleAbandoned_of_waitMarker _ h).trans (if_neg (by simp [hs])))⟩

/-- Settles O20: with no claim waiting the end of the access takes none. -/
theorem forwardError : Obligations.ForwardError := by
  intro s a ⟨⟨hp, ha, hc⟩, hb⟩ hs
  rw [exec_forwardDerr hp ha hs hb, claimTaken_of_no_claim (by exact hc)]

/-! ## The laws at reset -/

theorem engineLaw_reset : EngineLaw State.reset where
  walk := by decide
  recovery := by decide
  format := by decide
  copyA := nofun
  copyB := nofun
  formatMarker := nofun
  claimed := by decide
  claimedIn := by decide
  mark := by decide
  marks := by decide
  checkpoint := by decide
  window := by decide
  absent := by decide
  present := by decide
  unwritten _ := ⟨rfl, fun _ => ⟨rfl, rfl⟩⟩
  read := nofun

theorem mapLaw_reset : MapLaw State.reset where
  one := by decide
  active := by decide
  running := nofun
  queued := nofun
  sweeping i h := by cases i <;> cases h
  formatting := by decide
  scanning := nofun
  loading := by simp [State.reset, EpochController.powerOn]
  cutIn := nofun
  cutClean := nofun

theorem epochLaw_reset : EpochLaw State.reset where
  room := by decide
  rising := by decide
  numbered := nofun
  cut := nofun
  current := by decide
  formatted := by decide
  rebuilt := by simp [State.reset, EpochController.powerOn]
  scanned := nofun

theorem transitLaw_reset : TransitLaw State.reset where
  access a h := by simp [State.reset, Transit.powerOn] at h
  idle _ := rfl
  port h := by simp [State.reset, DPort.powerOn] at h

theorem noticesLawful_reset : NoticesLawful State.reset where
  oneOfAKind := by decide
  counts := nofun

/-- Settles O55: each law field by field. -/
theorem lawsHoldAtReset : Obligations.LawsHoldAtReset :=
  ⟨⟨rfl, rfl⟩, noticesLawful_reset, engineLaw_reset, mapLaw_reset, epochLaw_reset, transitLaw_reset⟩

end Sys2Proof.Machine
end

section
/-! Chapters 1, 2 and 6: the effective action, the taking of a commit, and what becomes of an access that arrives
(R8 to R10, R14 to R18, R23, R27 to R32, R104 to R111). -/

namespace Sys2Proof.Machine

open Sys2Proof.Safety

/-! ## The effective action (R8 to R10) -/

theorem anyHit_iff (t : Vector Region 12) (p : Policy) (ua : BitVec 24) (priv : Bool) :
    anyHit t p ua priv = true ↔ ∃ i : Fin 12, t[i].policy = p ∧ t[i].hits ua priv = true := by
  simp only [anyHit, List.any_eq_true, Vector.mem_toList_iff, Vector.mem_iff_getElem, Bool.and_eq_true,
    decide_eq_true_eq]
  constructor
  · rintro ⟨r, ⟨i, hi, rfl⟩, h⟩
    exact ⟨⟨i, hi⟩, h⟩
  · rintro ⟨i, h⟩
    exact ⟨_, ⟨i.val, i.isLt, rfl⟩, h⟩

/-- The GUARD region handed over is the lowest-numbered one that matches. -/
theorem guardHit_eq_some_iff (t : Vector Region 12) (ua : BitVec 24) (priv : Bool) (k : Nat) :
    guardHit t ua priv = some k ↔ ∃ i : Fin 12, k = i.val ∧ t[i].policy = .guard ∧ t[i].hits ua priv = true ∧
      ∀ j : Fin 12, j < i → t[j].policy = .guard → t[j].hits ua priv = false := by
  simp only [guardHit, List.findIdx?_eq_some_iff_getElem, Bool.and_eq_true, decide_eq_true_eq, Vector.getElem_toList,
    Vector.length_toList, not_and, Bool.not_eq_true]
  constructor
  · rintro ⟨hk, ⟨policy, hits⟩, least⟩
    exact ⟨⟨k, hk⟩, rfl, policy, hits, fun j hj => least j.val hj⟩
  · rintro ⟨i, rfl, policy, hits, least⟩
    exact ⟨i.isLt, ⟨policy, hits⟩, fun j hj => least ⟨j, hj.trans i.isLt⟩ hj⟩

theorem guardHit_eq_none_iff (t : Vector Region 12) (ua : BitVec 24) (priv : Bool) :
    guardHit t ua priv = none ↔ ¬ ∃ i : Fin 12, t[i].policy = .guard ∧ t[i].hits ua priv = true := by
  rw [← anyHit_iff, guardHit, List.findIdx?_eq_none_iff, anyHit, Bool.not_eq_true, List.any_eq_false]
  simp only [Bool.not_eq_true]

/-- Settles O9: the table's hits by policy, in the order in which the action is formed. -/
theorem effectiveAction : Obligations.EffectiveAction := by
  intro tab ua priv
  simp only [← anyHit_iff]
  have guarded := guardHit_eq_none_iff tab ua priv
  rw [← anyHit_iff] at guarded
  refine ⟨fun hg => ?_, fun hg hc hm => ?_, fun hg hc hm => ?_, fun hg hc hm => ?_, fun hg hc hm => ?_,
    fun hc => ?_, fun hc => ?_⟩
  · obtain ⟨k, hk⟩ := Option.ne_none_iff_exists'.mp fun h => guarded.mp h hg
    obtain ⟨i, rfl, found⟩ := (guardHit_eq_some_iff tab ua priv k).mp hk
    simp only [matchAccess, hk, if_true, true_and]
    exact ⟨i, rfl, found⟩
  all_goals cases captured : anyHit tab .capture ua priv <;> simp_all [matchAccess]

/-! ## Frames whose owner may be granted a port -/

/-- A command that passes every test of R161 gives its owner's state with the slot EXECUTING, and the grants. -/
theorem act_judgeFrame_of_executes {code : Byte} {f : Frame} {s : State} (owner : State → State)
    (h : frameExecutes code f s) :
    act s (judgeFrame code f owner) = .next (arbitrate (owner (holding code f s))) := by
  obtain ⟨⟨hlive, -⟩, -⟩ := id h
  rw [act_of_live hlive, judgeFrame_of_executes owner h]

@[simp] theorem holding_epochs (code : Byte) (f : Frame) (s : State) : (holding code f s).epochs = s.epochs := rfl

@[simp] theorem holding_journal (code : Byte) (f : Frame) (s : State) : (holding code f s).journal = s.journal := rfl

@[simp] theorem holding_maps (code : Byte) (f : Frame) (s : State) : (holding code f s).maps = s.maps := rfl

@[simp] theorem holding_transit (code : Byte) (f : Frame) (s : State) : (holding code f s).transit = s.transit := rfl

/-! ## The commit (R14 to R18) -/

/-- A claim made while no access is in progress comes to the boundary at once. -/
theorem claimed_eq (s : State) : claimed s = if s.transit.access.isNone then claimTaken s else s := by
  unfold claimed
  rw [boundary_eq]

theorem takeCommit_of_allowed {s : State} (hc : s.transit.claims.commit = true)
    (he : s.epochs.engine ∈ [.offline, .journaling, .faulted]) : takeCommit s = answer .ok []
      { s with transit.claims.commit := false, regions.active := s.regions.staged } := by
  unfold takeCommit
  rw [if_pos hc]
  simp only [List.mem_cons, List.not_mem_nil, or_false] at he
  rcases he with he | he | he <;> simp only [he] <;> rfl

theorem takeCommit_of_refused {s : State} (hc : s.transit.claims.commit = true)
    (he : s.epochs.engine ∈ [.formatting, .recovering, .rollingBack, .settling, .held]) :
    takeCommit s = answer .wrongState [] { s with transit.claims.commit := false } := by
  unfold takeCommit
  rw [if_pos hc]
  simp only [List.mem_cons, List.not_mem_nil, or_false] at he
  rcases he with he | he | he | he | he <;> simp only [he] <;> rfl

/-- A commit claimed while no access is in progress and no other claim waits is taken and answered at once. -/
theorem claimCommit_holding_at_boundary {f : Frame} {s : State} (ha : s.transit.access = none)
    (h1 : s.transit.claims.cut = none) (h2 : s.transit.claims.start = none)
    (he : s.epochs.engine ∈ [.offline, .journaling, .faulted]) : claimCommit (holding 0x05 f s) = answered f .ok []
      { s with regions.active := s.regions.staged, transit.claims.commit := false } := by
  have alone : (setClaims { s.transit.claims with commit := true } (holding 0x05 f s)).transit.claims =
      ⟨true, none, none⟩ := by
    show (⟨true, s.transit.claims.cut, s.transit.claims.start⟩ : Claims) = _
    rw [h1, h2]
  unfold claimCommit
  rw [claimed_eq, if_pos (by exact Option.isNone_iff_eq_none.mpr ha), claimTaken, holding_transit, alone]
  dsimp only
  rw [takeCommit_of_allowed rfl (by exact he)]
  rfl

theorem claimCommit_holding_in_access {f : Frame} {s : State} (ha : s.transit.access.isSome) :
    claimCommit (holding 0x05 f s) = holding 0x05 f { s with transit.claims.commit := true } := by
  unfold claimCommit
  rw [claimed_eq, if_neg (by simpa [setClaims, State.setTransit] using Option.ne_none_iff_isSome.mpr ha)]
  rfl

/-- The claim left alone beside a commit just taken, by its own command. -/
theorem claimTaken_after_commit {s : State} (hp : s.porn = false) (ha : s.transit.access = none)
    (hc : s.transit.claims.commit = false) :
    (.next (arbitrate (claimTaken s)) : Host.Outcome State Fault Refusal) =
      match s.transit.claims.cut, s.transit.claims.start with
      | none, none => .next (arbitrate s)
      | some _, none => exec .cutTaken s
      | none, some _ => exec .rollbackStart s
      | some _, some _ => .next (arbitrate s) := by
  rcases claims : s.transit.claims with ⟨commit, cut, start⟩
  rw [claims] at hc
  subst hc
  rcases cut with _ | b <;> rcases start with _ | k <;> dsimp only
  · rw [claimTaken_of_no_claim claims]
  · rw [exec_rollbackStart_alone hp ha claims]
  · rw [exec_cutTaken_alone hp ha claims]
  · rw [claimTaken, claims]

/-- A command that takes a claim does nothing more than the arbiters while none of its kind can be taken (log 4). -/
theorem exec_commitTaken_of_none {s : State} (hp : s.porn = false)
    (h : s.transit.access.isSome ∨ s.transit.claims.commit = false) :
    exec .commitTaken s = .next (arbitrate s) := by
  show execCommitTaken s = _
  unfold execCommitTaken
  rw [actOnClaims_of_live hp, if_neg]
  rcases h with h | h
  · simp [atBoundary, Option.ne_none_iff_isSome.mpr h]
  · simp [h]

/-- Settles O13: the claim by `claimCommit`, the taking by `takeCommit`, the claim beside it by
`claimTaken_after_commit`. -/
theorem commitRegions : Obligations.CommitRegions := by
  unfold Obligations.CommitRegions
  dsimp only
  refine ⟨fun f s h => ⟨fun he => ?_, fun g i he hg hi => ?_, fun allowed => ?_⟩, fun s code tag lost hp hl =>
    ⟨fun ha hc => ⟨fun he => ?_, fun he => ?_⟩, exec_commitTaken_of_none hp⟩⟩
  · simp only [List.mem_cons, List.not_mem_nil, or_false] at he
    rcases he with he | he | he | he | he <;>
      simp only [exec, execCommitRegions, act_judgeFrame_of_executes _ h, holding_epochs, he, answer_holding]
  · have validate : validateCommit (holding 0x05 f s) = answered f .badRegion [BitVec.ofNat 8 i, 0x01] s := by
      simp [validateCommit, hg, holding_regions, hi, badRegionData, beBytes, answer_holding]
    rcases he with he | he <;>
      simp only [exec, execCommitRegions, act_judgeFrame_of_executes _ h, holding_epochs, he, validate]
  · have claims : exec (.commitRegions f) s = .next (arbitrate (claimCommit (holding 0x05 f s))) := by
      rcases allowed with he | ⟨he | he, g, hg, inside⟩
      · simp only [exec, execCommitRegions, act_judgeFrame_of_executes _ h, holding_epochs, he]
      all_goals
        have validate : validateCommit (holding 0x05 f s) = claimCommit (holding 0x05 f s) := by
          simp [validateCommit, hg, holding_regions, inside]
        simp only [exec, execCommitRegions, act_judgeFrame_of_executes _ h, holding_epochs, he, validate]
    rw [claims]
    refine ⟨fun ha h1 h2 => ?_, fun ha => ?_⟩
    · rw [claimCommit_holding_at_boundary ha h1 h2]
      rcases allowed with he | ⟨he | he, -⟩ <;> simp [he]
    · rw [claimCommit_holding_in_access ha]
  · have taken : takeCommit s = { s with
        transit.claims.commit := false
        regions.active := s.regions.staged
        link.slot := .ready tag .ok [] lost } := by
      rw [takeCommit_of_allowed hc he, answer_eq, answerLink, hl]
    rw [exec_commitTaken hp ha hc, taken]
    exact claimTaken_after_commit hp ha rfl
  · have refused : takeCommit s =
        { s with transit.claims.commit := false, link.slot := .ready tag .wrongState [] lost } := by
      rw [takeCommit_of_refused hc he, answer_eq, answerLink, hl]
    rw [exec_commitTaken hp ha hc, refused]
    exact claimTaken_after_commit hp ha rfl

/-! ## Arrivals (R23, R27) -/

/-- The state in which an access that has just arrived is dispatched. -/
theorem arrive_eq (ua : BitVec 24) (write burst priv : Bool) (s : State) : arrive ua write burst priv s =
    dispatch (sampleAccess s ua write burst priv)
      { s with transit.access := some (sampleAccess s ua write burst priv), transit.answers := [] } := rfl

theorem dispatch_of_malformed {a : Access} (s : State) (h : malformed a.burst a.ua = true) :
    dispatch a s = answerErr a.write s := if_pos h

theorem dispatch_of_guard {a : Access} (s : State) (hm : malformed a.burst a.ua = false) {k : Nat}
    (h : a.result = ⟨.guard, some k⟩) :
    dispatch a s = answerErr a.write (post (.guardHit (byteAddr a.ua) a.priv k) s) := by
  simp [dispatch, hm, h]

theorem dispatch_of_refused {a : Access} (s : State) (hm : malformed a.burst a.ua = false)
    (h : a.result.action ∈ [.capture, .captureMark]) (he : a.engineAt.refuses = true) :
    dispatch a s = refuseAccess a a.engineAt s := by
  simp only [List.mem_cons, List.not_mem_nil, or_false] at h
  rcases h with h | h <;> simp [dispatch, hm, h, he]

theorem refuses_iff (e : Engine) :
    e.refuses = true ↔ e ∈ [.formatting, .recovering, .rollingBack, .settling, .held, .faulted] := by
  cases e <;> decide

/-- Settles O14: the three answers of the dispatch with an error. -/
theorem arrivalAnsweredWithError : Obligations.ArrivalAnsweredWithError := by
  refine ⟨fun s ua write priv h hm => ?_, fun s ua burst priv k h hm hg => ?_,
    fun s ua write burst priv h hm ha he => ?_⟩
  all_goals
    have noClaim := h.2.2.2
    rw [exec_accessArrival h, arrive_eq]
  · rw [dispatch_of_malformed _ (by simp [malformed, sampleAccess, hm]), answerErr_of_no_claim (by exact noClaim)]
    rfl
  · rw [dispatch_of_guard _ hm hg, answerErr_of_no_claim (by rw [post_eq]; exact noClaim), post_eq, post_eq]
    rfl
  · rw [dispatch_of_refused _ hm ha ((refuses_iff _).mpr he), refuseAccess_of_no_claim (by exact noClaim)]
    rfl

/-- An access that is neither refused nor tested goes on as it was sampled. -/
theorem dispatch_of_forwarded {a : Access} (s : State) (hm : malformed a.burst a.ua = false)
    (h : a.result.action ∈ [.pass, .mark] ∨ (a.result.action ∈ [.capture, .captureMark] ∧
      (a.engineAt = .offline ∨ (a.engineAt = .journaling ∧ a.write = false)))) : dispatch a s = s := by
  unfold dispatch
  rw [if_neg (by simp [hm])]
  simp only [List.mem_cons, List.not_mem_nil, or_false] at h
  rcases h with (h | h) | ⟨h | h, he | ⟨he, hw⟩⟩ <;> simp [*, Engine.refuses]

/-! ### The tests of R31 -/

theorem currentBroken_iff (s : State) :
    currentBroken s = true ↔ s.currentEpoch ≠ 0 ∧ s.currentEpoch = s.epochs.latestBroken := by
  simp [currentBroken]

theorem not_currentBroken {s : State} (h : s.currentEpoch ≠ s.epochs.latestBroken) : ¬ currentBroken s = true :=
  fun broken => h ((currentBroken_iff s).mp broken).2

theorem captureTests_of_broken {a : Access} {s : State} (h : currentBroken s = true) : captureTests a s =
    setAccess { a with stage := if s.epochs.breakRecording then .waitHeader else .forward } s := if_pos h

theorem captureTests_of_set {a : Access} {s : State} (h : ¬ currentBroken s = true)
    (set : bitSet s (byteAddr a.ua) = true) : captureTests a s =
      setAccess { a with stage := if markerComplete s s.currentEpoch then .forward else .waitMarker } s := by
  rw [captureTests, if_neg h, if_pos set]

theorem captureTests_of_free {a : Access} {s : State} (h : ¬ currentBroken s = true)
    (clear : bitSet s (byteAddr a.ua) = false) (free : 2 ≤ s.free) : captureTests a s = startCapture a s := by
  rw [captureTests, if_neg h, if_neg (by simp [clear]), if_pos free]

theorem captureTests_of_full {a : Access} {s : State} (h : ¬ currentBroken s = true)
    (clear : bitSet s (byteAddr a.ua) = false) (full : s.free < 2) : captureTests a s = fullJournal a s := by
  rw [captureTests, if_neg h, if_neg (by simp [clear]), if_neg (by omega)]

/-- A write tested under R31, with the outcome of the tests as a change of what it was sampled as. -/
theorem exec_accessArrival_tested {s : State} {ua : BitVec 24} {burst priv : Bool} (h : arrivalReady s)
    (hm : malformed burst ua = false) (he : s.epochs.engine = .journaling)
    (ha : (matchAccess s.regions.active ua true priv).action ∈ [.capture, .captureMark]) {x : State}
    (tests : captureTests (sampleAccess s ua true burst priv) (arrived s ua true burst priv
      (matchAccess s.regions.active ua true priv) .forward none) = x) :
    exec (.accessArrival ua true burst priv) s = .next (arbitrate x) := by
  rw [exec_accessArrival_governed h hm he ha, ← tests]
  rfl

/-- Settles O15: `dispatch_of_forwarded`, and the first two tests of R31. -/
theorem arrivalForwarded : Obligations.ArrivalForwarded := by
  unfold Obligations.ArrivalForwarded
  dsimp only
  refine ⟨fun s ua write burst priv h hm ha => ?_, fun s ua burst priv h hm he ha =>
    ⟨fun h0 hb => ⟨fun hr => ?_, fun hr => ?_⟩, fun hb set => ⟨fun hr => ?_, fun hr => ?_⟩⟩⟩
  · rw [exec_accessArrival h, arrive_eq, dispatch_of_forwarded _ hm ha]
    rfl
  all_goals refine exec_accessArrival_tested h hm he ha ?_
  · rw [captureTests_of_broken ((currentBroken_iff _).mpr (by exact ⟨h0, hb⟩)), if_pos (by exact hr)]
    rfl
  · rw [captureTests_of_broken ((currentBroken_iff _).mpr (by exact ⟨h0, hb⟩)), if_neg (by exact ne_true_of_eq_false hr)]
    rfl
  · rw [captureTests_of_set (not_currentBroken (by exact hb)) (by exact set), if_pos (by exact hr)]
    rfl
  · rw [captureTests_of_set (not_currentBroken (by exact hb)) (by exact set), if_neg (by exact ne_true_of_eq_false hr)]
    rfl

theorem startCapture_eq (a : Access) (s : State) : startCapture a s =
    { lowWater s.free (slotTaken s) with
      transit.access :=
        some { a with stage := .readOld, slot := some ⟨s.journal.tail, s.journal.sequence⟩, oldBursts := 0 } } := by
  unfold startCapture
  rw [allocate_eq, lowWater_eq]
  rfl

/-- Settles O16: the third test of R31. -/
theorem captureBegins : Obligations.CaptureBegins := by
  unfold Obligations.CaptureBegins
  intro s ua burst priv h hm he hb clear free m ha
  refine exec_accessArrival_tested h hm he ha ?_
  rw [captureTests_of_free (not_currentBroken (by exact hb)) (by exact clear) (by exact free), startCapture_eq, lowWater_eq, lowWater_eq]
  rfl

/-! ## The full journal (R104 to R111) -/

/-- A break as the state shows it before its notice. -/
theorem breakEpoch_eq (c : BreakCause) (s : State) : breakEpoch c s =
    post (.epochBroken s.currentEpoch c) (requestHeader (.brk s.currentEpoch)
      { s with epochs.latestBroken := s.currentEpoch, epochs.breakRecording := true }) := rfl

/-- Settles O17: the fourth test of R31 under both policies, and the expiry. -/
theorem fullJournal_settled : Obligations.FullJournal := by
  unfold Obligations.FullJournal
  dsimp only
  refine ⟨fun s ua burst priv h hm he hb clear full mode ha => ?_,
    fun s ua burst priv h hm he hb clear full mode ha => ?_, fun s a hp ha hs ht => ?_⟩
  · refine exec_accessArrival_tested h hm he ha ?_
    rw [captureTests_of_full (not_currentBroken (by exact hb)) (by exact clear) (by exact full), fullJournal]
    simp only [arrived, mode]
    rfl
  · refine exec_accessArrival_tested h hm he ha ?_
    rw [captureTests_of_full (not_currentBroken (by exact hb)) (by exact clear) (by exact full), fullJournal]
    simp only [arrived, mode]
    rfl
  · show execHoldTimerExpiry s = _
    unfold execHoldTimerExpiry
    rw [act_of_live (live_of_access hp ha)]
    simp only [ha]
    rw [if_pos ⟨hs, ht⟩]
    rfl

/-! ## The hold timer (R44, R45, R110) -/

/-- The eighth burst of a requested header copy: every request it carries is reported done, then the next write begins. -/
theorem exec_headerWriteDone_requested {s : State} {addr : Nat} {data : List Byte} {j : HeaderJob}
    (h : writesJ s .header addr data) (hj : s.journal.header.inFlight = some j) (hb : j.bursts = 7)
    (hk : j.kind = .requested) : exec .headerWriteDone s = .next (arbitrate (nextCopyBegun
      (j.requests.foldl (fun x r => requestDone r x)
        { landed addr (data.take 16) s with journal.header.inFlight := none }))) := by
  show execHeaderWriteDone s = _
  unfold execHeaderWriteDone
  rw [act_of_live h.1, jOwned_of_write h]
  dsimp only
  rw [endJ_of_write, hj]
  dsimp only
  rw [if_pos (by omega), headerDone_requested _ hk]

theorem nextCopyBegun_of_clean {x : State} (h : x.journal.header.dirty = false) : nextCopyBegun x = x := by
  simp [nextCopyBegun, h]

theorem markReevaluated_of_none {x : State} (h : x.epochs.engine ≠ .journaling ∨ x.epochs.pendingMark = 0) :
    markReevaluated x = x := by
  unfold markReevaluated
  rw [if_neg]
  rintro ⟨h1, h2, -⟩
  rcases h with h | h
  · exact h h1
  · omega

theorem spaceRetested_of_stalled {x : State} {a : Access} (ha : x.transit.access = some a) (hs : a.stage = .waitSpace)
    (hf : 2 ≤ x.free) : spaceRetested x =
      { lowWater x.free (slotTaken x) with
        transit.timer := none
        transit.access := some
          { a with stage := .readOld, slot := some ⟨x.journal.tail, x.journal.sequence⟩, oldBursts := 0 } } := by
  unfold spaceRetested
  simp only [ha]
  rw [if_pos ⟨hs, hf⟩]

theorem spaceRetested_of_not {x : State}
    (h : ∀ a : Access, x.transit.access = some a → a.stage = .waitSpace → x.free < 2) : spaceRetested x = x := by
  unfold spaceRetested
  split
  · rfl
  · rename_i a ha
    rw [if_neg]
    rintro ⟨hs, hf⟩
    have := h a ha hs
    omega

/-- A RELEASE done while no pending mark is re-evaluated: the held slots are free, the response is READY, and a stalled
write tests free again. -/
theorem requestDone_release {x : State} {tag : Byte} {lost : Bool} (hl : x.link.slot = .executing 0x0B tag lost)
    (h : x.epochs.engine ≠ .journaling ∨ x.epochs.pendingMark = 0) : requestDone .release x =
      spaceRetested { x with
        journal.occupied := x.journal.occupied - x.journal.held
        journal.held := 0
        link.slot := .ready tag .ok [] lost } := by
  unfold requestDone
  dsimp only
  rw [markReevaluated_of_none (by exact h), hl]
  rfl

/-- Settles O18: the tick by its definition, the RELEASE by `requestDone_release`. -/
theorem holdTimer : Obligations.HoldTimer := by
  unfold Obligations.HoldTimer
  dsimp only
  refine ⟨fun s h => ?_, fun s h idle => ?_, fun s addr data j a tag lost h hj hb hk hr hd hl hm ha hs => ?_⟩
  · show execTimeBaseTick s = _
    unfold execTimeBaseTick
    rw [quiet_of_live h]
    rfl
  · show execHoldTimerExpiry s = _
    unfold execHoldTimerExpiry
    rw [act_of_live h]
    congr 2
    split
    · rfl
    · rename_i a ha
      exact if_neg fun ⟨hs, ht⟩ => idle a ha hs ht
  · have done := exec_headerWriteDone_requested h hj hb hk
    rw [hr, List.foldl_cons, List.foldl_nil, requestDone_release (by exact hl) (by exact .inr hm)] at done
    rw [done]
    refine ⟨fun hf => ?_, fun hf => ?_⟩
    · rw [spaceRetested_of_stalled (by exact ha) hs (by exact hf),
        nextCopyBegun_of_clean (by rw [lowWater_eq]; exact hd)]
      rfl
    · rw [spaceRetested_of_not (fun _ _ _ => by exact hf), nextCopyBegun_of_clean (by exact hd)]
      rfl

end Sys2Proof.Machine
end

section
/-! Chapter 2: beats, MARK requests, and what a change of engine state does to the access in progress (R22 to R25, R37,
R38, R96 to R98). -/

namespace Sys2Proof.Machine

open Sys2Proof.Safety

/-! ## MARK requests (R97) -/

theorem endAccess_true_eq (s : State) :
    endAccess true s = claimTaken (markRequest (accessOver s.transit.answers s)) := by
  unfold endAccess
  rw [if_pos rfl, boundary_eq, dropAccess_eq]

/-- The count of pending marks after one more request. -/
def markCounted (s : State) : State := { s with epochs.pendingMark := min 255 (s.epochs.pendingMark + 1) }

theorem markRequest_of_dropped {s : State} (h : s.epochs.engine ≠ .journaling ∨ s.epochs.startClaimed = true) :
    markRequest s = s := if_pos h

theorem markRequest_of_accepted {s : State} (he : s.epochs.engine = .journaling)
    (hs : s.epochs.startClaimed = false) : markRequest s =
      if s.transit.claims.cut.isSome ∧ s.epochs.ckptInFlight then markCounted s
      else match cutFailure s with
        | none => claimCut .mark (markCounted s)
        | some reason => post (.markDeferred reason) (markCounted s) := by
  unfold markRequest
  rw [if_neg (by simp [he, hs])]
  rfl

theorem markRequest_of_satisfied {s : State} (he : s.epochs.engine = .journaling)
    (hs : s.epochs.startClaimed = false) (h : s.transit.claims.cut.isSome) (hf : s.epochs.ckptInFlight = true) :
    markRequest s = markCounted s := by
  rw [markRequest_of_accepted he hs, if_pos ⟨h, hf⟩]

theorem markRequest_of_deferred {s : State} (he : s.epochs.engine = .journaling)
    (hs : s.epochs.startClaimed = false) (h : s.epochs.ckptInFlight = false ∨ s.transit.claims.cut = none)
    {reason : Status} (hr : cutFailure s = some reason) :
    markRequest s = post (.markDeferred reason) (markCounted s) := by
  rw [markRequest_of_accepted he hs, if_neg (by rcases h with h | h <;> simp [h]), hr]

theorem markRequest_of_claimed {s : State} (he : s.epochs.engine = .journaling)
    (hs : s.epochs.startClaimed = false) (h : s.epochs.ckptInFlight = false ∨ s.transit.claims.cut = none)
    (hr : cutFailure s = none) : markRequest s =
      { markCounted s with epochs.ckptInFlight := true, transit.claims.cut := some .mark } := by
  rw [markRequest_of_accepted he hs, if_neg (by rcases h with h | h <;> simp [h]), hr]
  rfl

theorem startClaimed_of_cutFailure {s : State} (h : cutFailure s = none) : s.epochs.startClaimed = false := by
  by_contra claimed
  rw [cutFailure, if_pos (.inr (by simpa using claimed))] at h
  cases h

theorem ckptInFlight_of_cutFailure {s : State} (h : cutFailure s = none) : s.epochs.ckptInFlight = false := by
  by_contra flag
  have hf : s.epochs.ckptInFlight = true := by simpa using flag
  unfold cutFailure at h
  rw [if_pos hf] at h
  split at h <;> cases h

theorem engine_of_cutFailure {s : State} (h : cutFailure s = none) : s.epochs.engine = .journaling := by
  by_contra engine
  rw [cutFailure, if_pos (.inl engine)] at h
  cases h

/-- A cut claimed where no other claim waits is taken on the state without the claim. -/
theorem claimTaken_of_cut_claimed {s : State} {b : CutBy} (hc : s.transit.claims = Claims.none)
    (he : s.epochs.engine = .journaling) :
    claimTaken { s with epochs.ckptInFlight := true, transit.claims.cut := some b } =
      cut b { s with epochs.ckptInFlight := true } := by
  have claims : ({ s.transit.claims with cut := none } : Claims) = s.transit.claims := by rw [hc]; rfl
  have taken : claimTaken { s with epochs.ckptInFlight := true, transit.claims.cut := some b } =
      takeCut { s with epochs.ckptInFlight := true, transit.claims.cut := some b } := by
    unfold claimTaken
    dsimp only
    rw [hc]
    rfl
  rw [taken, takeCut]
  dsimp only
  rw [if_pos ⟨he, rfl⟩]
  simp only [setClaims, State.setTransit, claims]

/-! ## Beats of a forward -/

theorem marks_of_mem {a : Action} (h : a ∈ [.mark, .captureMark]) : a.marks = true := by
  cases a <;> simp_all [Action.marks]

/-- The last beat of a mark write: the MARK request comes before the boundary. -/
theorem exec_forwardBeatAck_marks {s : State} {a : Access} (hp : s.porn = false) (ha : s.transit.access = some a)
    (hs : a.stage = .forward) (hb : s.dport.burst = some .transit) (ube : BitVec 4) (data : Word)
    (last : a.acked + 1 = beatsOf a.burst) (hw : a.write = true) (hm : a.result.action ∈ [.mark, .captureMark]) :
    exec (.forwardBeatAck ube data) s = .next (arbitrate (claimTaken (markRequest
      (accessOver (Safety.beatCarried a ube data s).transit.answers (Safety.beatCarried a ube data s))))) := by
  rw [exec_forwardBeatAck hp ha hs hb, if_pos last, hw, marks_of_mem hm, Bool.and_self, endAccess_true_eq]

/-- Settles O19: each beat by `exec_forwardBeatAck`, each MARK request by what becomes of it. -/
theorem forwardBeat : Obligations.ForwardBeat := by
  unfold Obligations.ForwardBeat
  dsimp only
  refine ⟨fun s a ube data ⟨⟨hp, ha, hc⟩, hb⟩ hs => ⟨fun more go => ?_, fun last unmarked => ?_, fun more cut => ?_⟩,
    fun s a ube data ⟨⟨hp, ha, hc⟩, hb⟩ hs last hw hm => ?_, fun s a ube data hp ha hb hs last hw hm => ?_⟩
  · rw [exec_forwardBeatAck hp ha hs hb, if_neg (by omega), if_neg go]
    rfl
  · rw [exec_forwardBeatAck hp ha hs hb, if_pos last, unmarked, endAccess_of_no_claim (by exact hc)]
  · rw [exec_forwardBeatAck hp ha hs hb, if_neg (by omega), if_pos cut, answerErr_of_no_claim (by exact hc)]
  · rw [exec_forwardBeatAck_marks hp ha hs hb ube data last hw hm]
    refine ⟨fun dropped => ?_, fun he h0 reason hr => ?_, fun he hr => ?_⟩
    · rw [markRequest_of_dropped (by exact dropped), claimTaken_of_no_claim (by exact hc)]
    · rw [markRequest_of_deferred (by exact he) (by exact h0) (.inr (by exact congrArg Claims.cut hc)) (by exact hr),
        claimTaken_of_no_claim (by rw [post_eq]; exact hc)]
      rfl
    · rw [markRequest_of_claimed (by exact he) (by exact startClaimed_of_cutFailure hr)
        (.inr (by exact congrArg Claims.cut hc)) (by exact hr), claimTaken_of_cut_claimed (by exact hc) (by exact he)]
      rfl
  · rw [exec_forwardBeatAck_marks hp ha hs hb ube data last hw hm]
    refine ⟨fun k h0 claims => ?_, fun dropped => ?_, fun he h0 => ⟨fun b hf claims => ?_, fun hf claims => ?_,
      fun left => ⟨fun reason hr => ?_, fun hr => ?_⟩⟩⟩
    · rw [markRequest_of_dropped (.inr (by exact h0)), exec_rollbackStart_alone (by exact hp) rfl (by exact claims)]
    · rw [markRequest_of_dropped (by exact dropped)]
    · rw [markRequest_of_satisfied (by exact he) (by exact h0) (by show s.transit.claims.cut.isSome; rw [claims]; rfl)
        (by exact hf), exec_cutTaken_alone (by exact hp) rfl (by exact claims)]
      rfl
    · rw [markRequest_of_satisfied (by exact he) (by exact h0) (by exact claims) (by exact hf)]
      rfl
    · rw [markRequest_of_deferred (by exact he) (by exact h0) (by exact left) (by exact hr)]
      rfl
    · rw [markRequest_of_claimed (by exact he) (by exact h0) (by exact left) (by exact hr)]
      rfl

/-! ## The lanes of a beat (R24; logs 2, 30) -/

/-- One enabled lane stored, as a write beat does for each of its four. -/
def Memory.putLane (m : Memory) (a : Nat) (ube : BitVec 4) (w : Word) (j : Nat) : Memory :=
  if ube.getLsbD j then m.write (a + j) (lane w j) else m

theorem Memory.writeLanes_eq (m : Memory) (a : Nat) (ube : BitVec 4) (w : Word) : m.writeLanes a ube w =
    (((m.putLane a ube w 0).putLane a ube w 1).putLane a ube w 2).putLane a ube w 3 := rfl

theorem Memory.wf_putLane {m : Memory} (h : m.wf = true) (a : Nat) (ube : BitVec 4) (w : Word) (j : Nat) :
    (m.putLane a ube w j).wf = true := by
  unfold Memory.putLane
  split
  · exact Memory.wf_write _ _ h
  · exact h

theorem Memory.read_putLane {m : Memory} (h : m.wf = true) (a : Nat) (ube : BitVec 4) (w : Word) (j b : Nat) :
    (m.putLane a ube w j).read b = if ube.getLsbD j ∧ b = a + j then lane w j else m.read b := by
  unfold Memory.putLane
  cases ube.getLsbD j with
  | false => simp
  | true => simpa using Memory.read_write h _ _ _

theorem Memory.read_writeLanes {m : Memory} (h : m.wf = true) (a : Nat) (ube : BitVec 4) (w : Word) (b : Nat) :
    (m.writeLanes a ube w).read b =
      if ube.getLsbD 3 ∧ b = a + 3 then lane w 3
      else if ube.getLsbD 2 ∧ b = a + 2 then lane w 2
      else if ube.getLsbD 1 ∧ b = a + 1 then lane w 1
      else if ube.getLsbD 0 ∧ b = a + 0 then lane w 0
      else m.read b := by
  have h0 := Memory.wf_putLane h a ube w 0
  have h1 := Memory.wf_putLane h0 a ube w 1
  have h2 := Memory.wf_putLane h1 a ube w 2
  rw [Memory.writeLanes_eq, Memory.read_putLane h2, Memory.read_putLane h1, Memory.read_putLane h0,
    Memory.read_putLane h]

/-- A word from four lanes has them at their places. -/
theorem extractLsb'_ofLanes (b0 b1 b2 b3 : Byte) :
    (ofLanes [b0, b1, b2, b3]).extractLsb' 0 8 = b0 ∧ (ofLanes [b0, b1, b2, b3]).extractLsb' 8 8 = b1 ∧
    (ofLanes [b0, b1, b2, b3]).extractLsb' 16 8 = b2 ∧ (ofLanes [b0, b1, b2, b3]).extractLsb' 24 8 = b3 := by
  have value : (ofLanes [b0, b1, b2, b3]).toNat =
      b0.toNat + 256 * (b1.toNat + 256 * (b2.toNat + 256 * b3.toNat)) := by
    simp [ofLanes, wordLe, fieldLe, field, ofLe]
    omega
  refine ⟨?_, ?_, ?_, ?_⟩ <;> apply BitVec.eq_of_toNat_eq <;>
    simp only [BitVec.extractLsb'_toNat, Nat.shiftRight_eq_div_pow, value] <;> omega

/-- Settles O21: a beat lane by lane, a burst by the laws of `Memory.writeBytes`. -/
theorem bytesInMemory : Obligations.BytesInMemory := by
  refine ⟨fun m a ube w h => ⟨fun j => ?_, fun b hb => ?_, fun j => ?_⟩, fun m a bs h =>
    ⟨fun i b hi => Memory.read_writeBytes_inside h hi, fun x hx => Memory.read_writeBytes_outside h bs hx,
      fun n i hi => Memory.getElem?_readBytes m a hi⟩⟩
  · rw [Memory.read_writeLanes h]
    fin_cases j <;> simp [lane]
  · rw [Memory.read_writeLanes h, if_neg (by omega), if_neg (by omega), if_neg (by omega), if_neg (by omega)]
  · unfold Memory.readLanes
    obtain ⟨e0, e1, e2, e3⟩ := extractLsb'_ofLanes
      (if ube.getLsbD 0 then m.read (a + 0) else lane w 0) (if ube.getLsbD 1 then m.read (a + 1) else lane w 1)
      (if ube.getLsbD 2 then m.read (a + 2) else lane w 2) (if ube.getLsbD 3 then m.read (a + 3) else lane w 3)
    fin_cases j
    · exact e0
    · exact e1
    · exact e2
    · exact e3

/-! ## A change of engine state (R37) -/

theorem governed_of_mem {a : Action} (h : a ∈ [.capture, .captureMark]) : a.governed = true := by
  cases a <;> simp_all [Action.governed]

theorem not_governed_of_mem {a : Action} (h : a ∈ [.pass, .mark, .guard]) : a.governed = false := by
  cases a <;> simp_all [Action.governed]

theorem cutAccess_of_left {e : Engine} {s : State} {a : Access} (ha : s.transit.access = some a)
    (h : a.result.action.governed = false ∨ a.cut ≠ .no) : cutAccess e s = s := by
  unfold cutAccess
  rw [ha]
  dsimp only
  rw [if_neg]
  rintro ⟨hc, hg, -⟩
  rcases h with h | h
  · simp [h] at hg
  · exact h hc

/-- An access that is cut, by its transit state. -/
theorem cutAccess_of_governed {e : Engine} {s : State} {a : Access} (ha : s.transit.access = some a)
    (hg : a.result.action.governed = true) (hc : a.cut = .no) (he : e.refuses = true) : cutAccess e s =
      match a.stage with
      | .forward =>
        if s.dport.burst = some .transit then
          if Config.beatPresented s.fresh then
            if a.acked + 1 = beatsOf a.burst then setAccess { a with cut := .completes } (nextFresh s)
            else setAccess { a with cut := .afterBeat }
              (post (.refusedAccess (byteAddr a.ua) a.write e) (nextFresh s))
          else refuseAccess a e (nextFresh s)
        else refuseAccess a e s
      | .readOld => refuseAccess a e (settleCapture a e s)
      | .writeRecord => refuseAccess a e (settleCapture a e (disownJ .record s))
      | .waitMarker => refuseAccess a e (settleCapture a e s)
      | .waitSpace => refuseAccess a e s
      | .waitHeader => refuseAccess a e s
      | .answer => s := by
  unfold cutAccess
  rw [ha]
  dsimp only
  exact if_pos ⟨hc, hg, he⟩

theorem settleCapture_of_formatting (a : Access) (s : State) : settleCapture a .formatting s = s :=
  if_neg (by simp)

theorem settleCapture_of_no_slot {a : Access} (h : a.slot = none) (e : Engine) (s : State) :
    settleCapture a e s = s :=
  if_neg (by simp [h])

theorem settleCapture_of_faulted {a : Access} (h : a.slot.isSome) (s : State) : settleCapture a .faulted s =
    match a.stage with
    | .readOld => slotBack s
    | .writeRecord => slotBack s
    | .waitMarker => recordCapture (byteAddr a.ua) s
    | .forward => s
    | .waitSpace => s
    | .waitHeader => s
    | .answer => s := by
  unfold settleCapture
  rw [if_pos ⟨rfl, h⟩]
  rfl

/-- Settles O22: `cutAccess_of_governed` in each transit state. -/
theorem engineChangeCutsAccess : Obligations.EngineChangeCutsAccess := by
  unfold Obligations.EngineChangeCutsAccess
  dsimp only
  refine ⟨fun s a e ha he => ⟨fun left => ?_, fun hm hc => ?_⟩, fun s a e ha hs hb hc hm he => ?_, disownJ_eq⟩
  · exact cutAccess_of_left ha (left.imp_left not_governed_of_mem)
  · have cuts (f : Engine) (hf : f.refuses = true) := cutAccess_of_governed ha (governed_of_mem hm) hc hf
    have refuses := (refuses_iff e).mpr he
    refine ⟨?_, fun hs hb => ?_, fun hs hk => ?_, fun hs hk => ?_, fun hs hk => ?_, fun hs hk => ?_, ?_,
      fun hs => ?_⟩
    · rintro (hs | hs) <;> simp only [cuts e refuses, hs, refuseAccess_eq]
    · simp only [cuts e refuses, hs, if_neg hb, refuseAccess_eq]
    · simp only [cuts .faulted rfl, hs, settleCapture_of_faulted hk, refuseAccess_eq]
      rfl
    · simp only [cuts .faulted rfl, hs, settleCapture_of_faulted hk, refuseAccess_eq]
      rw [show (slotBack (disownJ .record s)).transit = s.transit from disownJ_transit _ _]
    · simp only [cuts .faulted rfl, hs, settleCapture_of_no_slot hk, refuseAccess_eq]
    · simp only [cuts .faulted rfl, hs, settleCapture_of_faulted hk, refuseAccess_eq]
      rfl
    · rintro (hs | hs) <;> simp only [cuts .formatting rfl, hs, settleCapture_of_formatting, refuseAccess_eq]
    · simp only [cuts .formatting rfl, hs, settleCapture_of_formatting, refuseAccess_eq, disownJ_transit]
  · rw [cutAccess_of_governed ha (governed_of_mem hm) hc he]
    simp only [hs, if_pos hb]
    by_cases presented : Config.beatPresented s.fresh = true
    · rw [if_pos presented]
      by_cases last : a.acked + 1 = beatsOf a.burst
      · rw [if_pos last]
        exact .inr (.inl ⟨last, rfl⟩)
      · refine .inr (.inr ⟨last, ?_⟩)
        rw [if_neg last, post_eq, post_eq]
        rfl
    · rw [if_neg presented, refuseAccess_eq]
      exact .inl rfl

end Sys2Proof.Machine
end

section
/-! Chapters 2 and 4: captures and their failures, the bursts on the J-port, and the layouts of journal memory (R32 to
R36, R60 to R65, R73, R74, R183, R184). -/

namespace Sys2Proof.Machine

open Sys2Proof.Safety

/-! ## Captures (R33 to R36) -/

/-- A burst of old data is read; the fourth composes the record. -/
theorem exec_oldDataBurstDone {s : State} {a : Access} (hp : s.porn = false) (ha : s.transit.access = some a)
    (hs : a.stage = .readOld) (hb : s.dport.burst = some .transit) : exec .oldDataBurstDone s = .next (arbitrate
      (if a.oldBursts + 1 = 4 then
        setAccess
          { a with
            oldBursts := 4
            stage := .writeRecord
            recBursts := 0
            record := composeUndo a (freeD (takeOldBurst a s)) }
          (freeD (takeOldBurst a s))
      else setAccess { a with oldBursts := a.oldBursts + 1 } (freeD (takeOldBurst a s)))) := by
  show execOldDataBurstDone s = _
  unfold execOldDataBurstDone
  rw [act_of_live (live_of_access hp ha), readingOld_of_onD ha hs hb]

/-- A record burst acknowledged: its bytes are in the journal memory, and the sixth completes the record. -/
theorem exec_recordWriteDone {s : State} {a : Access} (ha : s.transit.access = some a) (hs : a.stage = .writeRecord)
    {addr : Nat} {data : List Byte} (h : writesJ s .record addr data) : exec .recordWriteDone s = .next (arbitrate
      (if a.recBursts + 1 = 6 then recordComplete { a with recBursts := 6 } (landed addr (data.take 16) s)
      else setAccess { a with recBursts := a.recBursts + 1 } (landed addr (data.take 16) s))) := by
  show execRecordWriteDone s = _
  unfold execRecordWriteDone
  rw [act_of_live h.1, jOwned_of_write h]
  dsimp only
  rw [endJ_of_write, writingRecord_of_access (s := landed addr _ s) ha hs]

theorem jOwned_of_burst {s : State} {b : JBurst} (h : s.journal.jport.burst = some b) : jOwned b.client s = some b := by
  unfold jOwned
  rw [h]
  exact if_pos rfl

/-- Settles O23: each command on the burst it ends. -/
theorem captureReadsAndFails : Obligations.CaptureReadsAndFails := by
  unfold Obligations.CaptureReadsAndFails
  dsimp only
  refine ⟨fun s a ⟨⟨hp, ha, hc⟩, hb⟩ hs hn => ⟨fun more => ?_, fun g k last hg hk => ?_⟩,
    fun s a => ⟨fun ⟨⟨hp, ha, hc⟩, hb⟩ hs => ?_, fun addr data beats ⟨hp, ha, hc⟩ hs hj => ?_⟩,
    fun s addr data beats hlive hb => ⟨?_, ?_⟩⟩
  · rw [exec_oldDataBurstDone hp ha hs hb, if_neg (by omega)]
    rfl
  · rw [exec_oldDataBurstDone hp ha hs hb, if_pos (by omega)]
    have record : composeUndo a (freeD (takeOldBurst a s)) = undoRecord g.identity k.sequence s.currentEpoch
        (granuleOf (4 * a.ua.toNat)) (takeOldBurst a s).transit.buffer := by
      show undoRecord ((s.journal.geometry.map (·.identity)).getD 0) ((a.slot.map (·.sequence)).getD 0) _ _ _ = _
      rw [hg, hk]
      rfl
    rw [record]
    rfl
  · rw [exec_oldDataDerr hp ha hs hb, claimTaken_of_no_claim (by rw [post_eq]; exact hc)]
  · rw [exec_recordWriteJerr hp ha hs hj.2, claimTaken_of_no_claim (by rw [post_eq]; exact hc)]
  · show execRecordWriteDone s = _
    unfold execRecordWriteDone
    rw [act_of_live hlive, show jOwned .record s = _ from jOwned_of_burst hb]
    rfl
  · show execRecordWriteJerr beats s = _
    unfold execRecordWriteJerr
    rw [act_of_live hlive, show jOwned .record s = _ from jOwned_of_burst hb]
    rfl

/-! ## A capture recorded (R35, R51, R84) -/

theorem mem_insertBit (bits : List Nat) (i k : Nat) : k ∈ insertBit bits i ↔ k = i ∨ k ∈ bits := by
  induction bits with
  | nil => simp [insertBit]
  | cons b t ih =>
    unfold insertBit
    split
    · simp
    · split
      · simp_all
      · simp only [List.mem_cons, ih]
        tauto

theorem get_put_same (m : CaptureMaps) (i : MapId) (x : CaptureMap) : (m.put i x).get i = x := by
  cases i <;> rfl

theorem get_put_other (m : CaptureMaps) {i j : MapId} (h : j ≠ i) (x : CaptureMap) : (m.put i x).get j = m.get j := by
  cases i <;> cases j <;> first | rfl | exact absurd rfl h

/-- Which map is in a state depends on the two states alone. -/
theorem find_congr {m n : CaptureMaps} (h : ∀ j, (m.get j).state = (n.get j).state) (x : MapState) :
    m.find x = n.find x := by
  have h0 : m.m0.state = n.m0.state := h .m0
  have h1 : m.m1.state = n.m1.state := h .m1
  simp only [CaptureMaps.find, h0, h1]

theorem put_window (m : CaptureMaps) (i : MapId) (x : CaptureMap) : (m.put i x).window = m.window := by
  cases i <;> rfl

theorem put_running (m : CaptureMaps) (i : MapId) (x : CaptureMap) : (m.put i x).running = m.running := by
  cases i <;> rfl

theorem put_queued (m : CaptureMaps) (i : MapId) (x : CaptureMap) : (m.put i x).queued = m.queued := by
  cases i <;> rfl

/-- A bit set in the ACTIVE map. -/
theorem setBit_eq {m : CaptureMaps} {i : MapId} {w : Window} (hi : m.find .active = some i) (hw : m.window = some w)
    (a : Nat) : setBit m a = m.put i { m.get i with bits := insertBit (m.get i).bits (w.index a) } := by
  simp [setBit, hi, CaptureMaps.indexOf, hw]

theorem setBit_states (m : CaptureMaps) (a : Nat) (j : MapId) : ((setBit m a).get j).state = (m.get j).state := by
  unfold setBit
  split
  · rename_i i b _ _
    by_cases h : j = i
    · subst h
      rw [get_put_same]
    · rw [get_put_other _ h]
  · rfl

theorem raiseLast_append (l : List Entry) (e : Entry) : raiseLast (l ++ [e]) = l ++ [{ e with undo := e.undo + 1 }] := by
  induction l with
  | nil => rfl
  | cons x t ih =>
    cases t with
    | nil => rfl
    | cons y t => exact congrArg (x :: ·) ih

theorem recordComplete_eq (a : Access) (s : State) : recordComplete a s =
    if markerComplete s s.currentEpoch then
      setAccess { a with stage := .forward } (recordCapture (byteAddr a.ua) s)
    else setAccess { a with stage := .waitMarker } s := rfl

/-- Settles O24: the record's bursts, then the map and the table that a recorded capture changes. -/
theorem recordWritten : Obligations.RecordWritten := by
  unfold Obligations.RecordWritten
  dsimp only
  refine ⟨fun s a addr data ha hs h => ⟨fun more => ?_, fun last hm => ?_, fun last hm => ?_⟩,
    fun a s w i hi hw => ?_⟩
  · rw [exec_recordWriteDone ha hs h, if_neg more]
    rfl
  · rw [exec_recordWriteDone ha hs h, if_pos last, recordComplete_eq, if_pos (by exact hm)]
    rfl
  · rw [exec_recordWriteDone ha hs h, if_pos last, recordComplete_eq, if_neg (by exact ne_true_of_eq_false hm)]
    rfl
  · have maps : (recordCapture a s).maps =
        s.maps.put i { s.maps.get i with bits := insertBit (s.maps.get i).bits (w.index a) } := setBit_eq hi hw a
    have states (j : MapId) : ((recordCapture a s).maps.get j).state = (s.maps.get j).state := setBit_states _ _ j
    refine ⟨?_, fun k hk => ?_, fun j => ⟨states j, fun hj => ?_⟩, rfl, ?_, ?_, ?_, fun l e ht => ?_⟩
    · have active : (recordCapture a s).maps.find .active = some i := (find_congr states _).trans hi
      have index : (recordCapture a s).maps.indexOf a = some (w.index a) := by
        rw [CaptureMaps.indexOf, maps, put_window, hw]
        rfl
      rw [bitSet, active, index]
      dsimp only
      rw [maps, get_put_same]
      simp [mem_insertBit]
    · rw [maps, get_put_same, Bool.eq_iff_iff]
      simp [mem_insertBit, hk]
    · rw [maps, get_put_other _ hj]
    · rw [maps, put_window]
    · rw [maps, put_running]
    · rw [maps, put_queued]
    · show raiseLast s.epochs.table = _
      rw [ht, raiseLast_append]

/-! ## Bursts on the J-port (R60, R73, R74, R76) -/

theorem exec_markerWriteDone {s : State} {addr : Nat} {data : List Byte} {j : MarkerJob}
    (h : writesJ s .marker addr data) (hj : s.journal.marker = .inFlight j) : exec .markerWriteDone s =
      .next (arbitrate (if j.bursts + 1 = 6 then markerDone j (landed addr (data.take 16) s)
        else setMarker (.inFlight { j with bursts := j.bursts + 1 }) (landed addr (data.take 16) s))) := by
  show execMarkerWriteDone s = _
  unfold execMarkerWriteDone
  rw [act_of_live h.1, jOwned_of_write h]
  dsimp only
  rw [endJ_of_write, hj]

theorem exec_headerWriteDone {s : State} {addr : Nat} {data : List Byte} {j : HeaderJob}
    (h : writesJ s .header addr data) (hj : s.journal.header.inFlight = some j) : exec .headerWriteDone s =
      .next (arbitrate (if j.bursts + 1 = 8 then headerDone j (landed addr (data.take 16) s)
        else { landed addr (data.take 16) s with
          journal.header.inFlight := some { j with bursts := j.bursts + 1 } })) := by
  show execHeaderWriteDone s = _
  unfold execHeaderWriteDone
  rw [act_of_live h.1, jOwned_of_write h]
  dsimp only
  rw [endJ_of_write, hj]
  rfl

/-- Settles O25: the middle bursts, and each claimant's burst by its definition. -/
theorem writeBurstsLand : Obligations.WriteBurstsLand := by
  unfold Obligations.WriteBurstsLand
  refine ⟨fun s addr data => ⟨fun j h hj more => ?_, fun j h hj more => ?_⟩, fun s => ⟨fun a g ha hg => ?_,
    fun j hj => ?_, fun j hj => ?_, rfl, fun buf hr => ?_, fun h sc buf hr => ?_, fun h sc ld buf hr => ?_,
    fun j hj => ?_⟩⟩
  · rw [exec_markerWriteDone h hj, if_neg more]
    rfl
  · rw [exec_headerWriteDone h hj, if_neg more]
  · simp only [jBurst, ha, hg]
    rfl
  · simp only [jBurst, hj]
    rfl
  · simp only [jBurst, hj]
    cases j.copy <;> rfl
  all_goals
    simp only [jBurst, *]
    rfl

end Sys2Proof.Machine
end

section
/-! Chapter 11: records and header copies read back as they were written (R65, R75, R183, R184). -/

namespace Sys2Proof.Machine

/-! ## Numbers read back from their bytes -/

theorem ofLe_halfBytes (x : BitVec 16) : ofLe (halfBytes x) = x.toNat := by
  simp only [halfBytes, ofLe, BitVec.extractLsb'_toNat, Nat.shiftRight_eq_div_pow]
  have := x.isLt
  omega

theorem ofLe_wordBytes (x : Word) : ofLe (wordBytes x) = x.toNat := by
  simp only [wordBytes, ofLe, BitVec.extractLsb'_toNat, Nat.shiftRight_eq_div_pow]
  have := x.isLt
  omega

theorem wordBytes_zero : wordBytes 0 = [0, 0, 0, 0] := by
  decide

theorem wordLe_of_field {bs : List Byte} {off : Nat} {x : Word} (h : field bs off 4 = wordBytes x) :
    wordLe bs off = x := by
  rw [wordLe, fieldLe, h, ofLe_wordBytes, BitVec.ofNat_toNat, BitVec.setWidth_eq]

theorem fieldLe_of_word {bs : List Byte} {off n : Nat} (hn : n < 4294967296)
    (h : field bs off 4 = wordBytes (BitVec.ofNat 32 n)) : fieldLe bs off 4 = n := by
  rw [fieldLe, h, ofLe_wordBytes, BitVec.toNat_ofNat, Nat.mod_eq_of_lt (by omega)]

theorem ofNat_fieldLe_of_half {bs : List Byte} {off : Nat} {x : BitVec 16} (h : field bs off 2 = halfBytes x) :
    BitVec.ofNat 16 (fieldLe bs off 2) = x := by
  rw [fieldLe, h, ofLe_halfBytes, BitVec.ofNat_toNat, BitVec.setWidth_eq]

/-! ## Records -/

/-- A record's fields are read back from its layout, with the check it was laid out with. -/
theorem Record.decode_layout {r : Record} (c : BitVec 16) (hg : r.granule < 4294967296) (ho : r.old.length = 64) :
    Record.decode (r.layout c) = { r with check := c } := by
  rw [Record.layout_eq c hg]
  have check := ofNat_fieldLe_of_half (x := c) (bs := [r.kind, r.cause] ++ halfBytes c ++ wordBytes r.identity
    ++ wordBytes r.sequence ++ wordBytes r.epoch ++ wordBytes (BitVec.ofNat 32 r.granule) ++ wordBytes r.reopenedFrom
    ++ r.merged :: zeros 7 ++ r.old) (off := 2) rfl
  rw [Record.decode, check, wordLe_of_field (off := 4) (x := r.identity) rfl,
    wordLe_of_field (off := 8) (x := r.sequence) rfl, wordLe_of_field (off := 12) (x := r.epoch) rfl,
    wordLe_of_field (off := 20) (x := r.reopenedFrom) rfl, fieldLe_of_word (off := 16) hg rfl]
  have old : field ([r.kind, r.cause] ++ halfBytes c ++ wordBytes r.identity
      ++ wordBytes r.sequence ++ wordBytes r.epoch ++ wordBytes (BitVec.ofNat 32 r.granule)
      ++ wordBytes r.reopenedFrom ++ r.merged :: zeros 7 ++ r.old) 32 64 = r.old := by
    show r.old.take 64 = r.old
    exact List.take_of_length_le (by omega)
  rw [old]
  rfl

theorem Record.length_layout {r : Record} (c : BitVec 16) (hg : r.granule < 4294967296) (ho : r.old.length = 64) :
    (r.layout c).length = 96 := by
  rw [Record.layout_eq c hg]
  simp [halfBytes, wordBytes, zeros, ho]

/-- The check a record is written with is the one a reader computes over it. -/
theorem Record.crc_encode (r : Record) : crc16 (clearCheck r.encode 2) = crc16 (r.layout 0) := by
  rw [Record.encode, Record.clearCheck_layout]

theorem Record.decode_encode {r : Record} (hg : r.granule < 4294967296) (ho : r.old.length = 64) :
    Record.decode r.encode = { r with check := crc16 (clearCheck r.encode 2) } := by
  rw [Record.crc_encode, Record.encode, Record.decode_layout _ hg ho]

/-- A well-formed record as written is judged VALID by a reader that expects its identity. -/
theorem Record.verdict_encode {r : Record} (hg : r.granule < 4294967296) (ho : r.old.length = 64)
    (hw : r.wellFormed = true) : verdict (some r.identity) r.encode = .valid := by
  have form : Record.wellFormed { r with check := crc16 (clearCheck r.encode 2) } = true := hw
  simp [verdict, Record.decode_encode hg ho, form]

theorem Cause.ofCode_code (c : Cause) : Cause.ofCode c.code = some c := by
  cases c <;> rfl

theorem marker_wellFormed {identity sequence epoch : Word} {cause : Cause} {merged : Byte} {reopenedFrom : Word}
    (he : epoch ≠ 0) (hc : cause = .reopen ↔ reopenedFrom ≠ 0) : Record.wellFormed
      ⟨kindMarker, cause.code, 0, identity, sequence, epoch, 0, reopenedFrom, merged, zeros 64⟩ = true := by
  have marker : ¬ kindMarker = kindUndo := by decide
  simp only [Record.wellFormed, marker, if_false, if_true, Cause.ofCode_code]
  cases cause <;> simp_all

/-! ## Header copies -/

theorem Header.decode_layout {h : Header} (c : BitVec 16) (h0 : h.sizeCode < 256) (h1 : h.slotCount < 4294967296)
    (h2 : h.windowBase < 4294967296) (h3 : h.headSlot < 4294967296) : Header.decode (h.layout c) = h := by
  rw [Header.layout_eq c h1 h2 h3]
  rw [Header.decode, wordLe_of_field (off := 8) (x := h.generation) rfl,
    wordLe_of_field (off := 12) (x := h.identity) rfl, wordLe_of_field (off := 28) (x := h.headSequence) rfl,
    wordLe_of_field (off := 32) (x := h.headEpoch) rfl, wordLe_of_field (off := 36) (x := h.latestBroken) rfl,
    wordLe_of_field (off := 40) (x := h.pendingTarget) rfl, fieldLe_of_word (off := 16) h1 rfl,
    fieldLe_of_word (off := 20) h2 rfl, fieldLe_of_word (off := 24) h3 rfl]
  have size : ofLe [BitVec.ofNat 8 h.sizeCode] = h.sizeCode := by
    simp only [ofLe, BitVec.toNat_ofNat]
    omega
  exact congrArg (fun n => ({ h with sizeCode := n } : Header)) size

/-- The check a header copy is written with is the one a reader computes over it. -/
theorem Header.crc_encode (h : Header) : crc16 (clearCheck h.encode 4) = crc16 (h.layout 0) := by
  rw [Header.encode, Header.clearCheck_layout]

theorem Header.valid_encode {h : Header} (h1 : h.slotCount < 4294967296) (h2 : h.windowBase < 4294967296)
    (h3 : h.headSlot < 4294967296) : headerValid h.encode = true := by
  have check : BitVec.ofNat 16 (fieldLe h.encode 4 2) = crc16 (h.layout 0) := by
    rw [Header.encode, Header.layout_eq _ h1 h2 h3]
    exact ofNat_fieldLe_of_half rfl
  have tag : field h.encode 0 4 = headerTag := by
    rw [Header.encode, Header.layout_eq _ h1 h2 h3]
    rfl
  rw [headerValid, check, tag, Header.crc_encode]
  simp

/-- Settles O26: the layouts written out byte by byte, read back by `Record.decode_encode` and `Header.decode_layout`. -/
theorem layoutsRoundTrip : Obligations.LayoutsRoundTrip := by
  unfold Obligations.LayoutsRoundTrip
  dsimp only
  refine ⟨fun identity sequence epoch he => ⟨fun granule old hg hm ho => ?_, fun cause merged from' hm hc => ?_⟩,
    fun h h0 h1 h2 h3 => ?_⟩
  · have form : Record.wellFormed ⟨kindUndo, 0, 0, identity, sequence, epoch, granule, 0, 0, old⟩ = true := by
      simpa [Record.wellFormed, hm] using he
    have bytes := Record.layout_eq (r := ⟨kindUndo, 0, 0, identity, sequence, epoch, granule, 0, 0, old⟩)
      (crc16 (Record.layout ⟨kindUndo, 0, 0, identity, sequence, epoch, granule, 0, 0, old⟩ 0)) hg
    refine ⟨Record.length_layout _ hg ho, Record.verdict_encode hg ho form, Record.decode_encode hg ho, ?_⟩
    have crc := Record.crc_encode ⟨kindUndo, 0, 0, identity, sequence, epoch, granule, 0, 0, old⟩
    rw [clearCheck] at crc
    rw [undoRecord, crc, Record.encode, bytes]
    simp only [wordBytes_zero]
    exact ⟨rfl, rfl, ⟨rfl, rfl⟩, ⟨rfl, rfl, rfl, rfl⟩, ⟨rfl, rfl, rfl, rfl⟩, ⟨rfl, rfl, rfl, rfl⟩,
      ⟨rfl, rfl, rfl, rfl⟩, rfl, rfl⟩
  · have hg : (0 : Nat) < 4294967296 := by decide
    have form := marker_wellFormed (identity := identity) (sequence := sequence) (merged := BitVec.ofNat 8 merged)
      he hc
    have bytes := Record.layout_eq (r := ⟨kindMarker, cause.code, 0, identity, sequence, epoch, 0, from',
      BitVec.ofNat 8 merged, zeros 64⟩) (crc16 (Record.layout ⟨kindMarker, cause.code, 0, identity, sequence, epoch,
      0, from', BitVec.ofNat 8 merged, zeros 64⟩ 0)) hg
    refine ⟨Record.length_layout _ hg rfl, Record.verdict_encode hg rfl form, Record.decode_encode hg rfl, ?_⟩
    have crc := Record.crc_encode ⟨kindMarker, cause.code, 0, identity, sequence, epoch, 0, from',
      BitVec.ofNat 8 merged, zeros 64⟩
    rw [clearCheck] at crc
    rw [markerRecord, crc, Record.encode, bytes]
    exact ⟨rfl, by cases cause <;> rfl, ⟨rfl, rfl⟩, ⟨rfl, rfl, rfl, rfl⟩, ⟨rfl, rfl, rfl, rfl⟩,
      ⟨rfl, rfl, rfl, rfl⟩, ⟨rfl, rfl, rfl, rfl⟩, ⟨rfl, rfl, rfl, rfl⟩, rfl, rfl⟩
  · have bytes := Header.layout_eq (crc16 (h.layout 0)) h1 h2 h3
    have crc := h.crc_encode
    rw [clearCheck] at crc
    refine ⟨?_, Header.valid_encode h1 h2 h3, Header.decode_layout _ h0 h1 h2 h3, ?_⟩
    · rw [Header.encode, bytes]
      simp [headerTag, halfBytes, wordBytes, zeros]
    · rw [crc, Header.encode, bytes]
      simp only [headerTag, halfBytes, wordBytes, List.cons_append, List.nil_append]
      exact ⟨rfl, ⟨rfl, rfl⟩, rfl, rfl, ⟨rfl, rfl, rfl, rfl⟩, ⟨rfl, rfl, rfl, rfl⟩, ⟨rfl, rfl, rfl, rfl⟩,
        ⟨rfl, rfl, rfl, rfl⟩, ⟨rfl, rfl, rfl, rfl⟩, ⟨rfl, rfl, rfl, rfl⟩, ⟨rfl, rfl, rfl, rfl⟩,
        ⟨rfl, rfl, rfl, rfl⟩, ⟨rfl, rfl, rfl, rfl⟩, rfl⟩

end Sys2Proof.Machine
end

section
/-! Chapter 4: header writes and MARKER writes, their requests, completions and failures (R74 to R78, R93, R102, R106,
R135, R141, R142). -/

namespace Sys2Proof.Machine

open Sys2Proof.Safety

/-! ## The requests of a header write, reported done one by one (R77) -/

theorem requestDone_checkpoint {x : State} (hf : x.epochs.ckptInFlight = true)
    (h : x.epochs.engine ≠ .journaling ∨ x.epochs.pendingMark = 0) (e : Word) (c : Cause) (slot merged : Nat) :
    requestDone (.checkpoint e c slot merged) x =
      post (.ckptDone e c slot merged) { x with epochs.ckptInFlight := false } := by
  unfold requestDone
  dsimp only
  rw [if_pos hf, markReevaluated_of_none (by rw [post_eq]; exact h)]

theorem requestDone_checkpoint_of_dropped {x : State} (hf : x.epochs.ckptInFlight = false) (e : Word) (c : Cause)
    (slot merged : Nat) : requestDone (.checkpoint e c slot merged) x = x :=
  if_neg (ne_true_of_eq_false hf)

theorem requestDone_brk_of_waiting {x : State} {a : Access} (ha : x.transit.access = some a)
    (hs : a.stage = .waitHeader) : requestDone (.brk x.epochs.latestBroken) x =
      { x with epochs.breakRecording := false, transit.access := some { a with stage := .forward } } := by
  unfold requestDone
  dsimp only
  rw [if_pos rfl, ha, Option.map_some, if_pos hs]

theorem requestDone_brk_of_not_waiting {x : State}
    (h : x.transit.access.all fun a => decide (a.stage ≠ .waitHeader)) :
    requestDone (.brk x.epochs.latestBroken) x = { x with epochs.breakRecording := false } := by
  have same : (x.transit.access.map fun a => if a.stage = .waitHeader then { a with stage := .forward } else a) =
      x.transit.access := by
    cases ha : x.transit.access with
    | none => rfl
    | some a =>
      rw [ha] at h
      exact congrArg some (if_neg (by simpa using h))
  unfold requestDone
  dsimp only
  rw [if_pos rfl, same]

theorem requestDone_brk_of_superseded {x : State} {e : Word} (h : x.epochs.latestBroken ≠ e) :
    requestDone (.brk e) x = x := if_neg h

theorem requestDone_start_of_stopped {x : State} (h : x.epochs.walker.state ≠ .waitStart) :
    requestDone .start x = x := if_neg h

theorem requestDone_recover {x : State} (he : x.epochs.engine = .recovering) {h : Header} {sc : Scan}
    (hr : x.epochs.recovery = .header h sc) : requestDone .recover x =
      post (.recoverDone .restored sc.entries.length sc.records)
        { x with epochs.engine := .journaling, epochs.recovery := .idle } := by
  unfold requestDone recoverEnd
  dsimp only
  rw [if_pos he, hr]
  rfl

theorem spaceRetested_of_not_waiting {x : State} (h : x.transit.access.all fun a => decide (a.stage ≠ .waitSpace)) :
    spaceRetested x = x := by
  refine spaceRetested_of_not fun a ha hs => ?_
  rw [ha] at h
  simp [hs] at h

/-- The eighth burst of a requested copy that carries one request. -/
theorem exec_headerWriteDone_of_one {s : State} {addr : Nat} {data : List Byte} {j : HeaderJob}
    (h : writesJ s .header addr data) (hj : s.journal.header.inFlight = some j) (hb : j.bursts = 7)
    (hk : j.kind = .requested) {r : HeaderRequest} (hr : j.requests = [r]) {x : State}
    (effect : requestDone r { landed addr (data.take 16) s with journal.header.inFlight := none } = x) :
    exec .headerWriteDone s = .next (arbitrate (nextCopyBegun x)) := by
  rw [exec_headerWriteDone_requested h hj hb hk, hr, List.foldl_cons, List.foldl_nil, effect]

/-- A RELEASE's end with nothing left to re-evaluate or to test again. -/
theorem requestDone_release_quiet {x : State} {tag : Byte} {lost : Bool} (hl : x.link.slot = .executing 0x0B tag lost)
    (h : x.epochs.engine ≠ .journaling ∨ x.epochs.pendingMark = 0)
    (hs : x.transit.access.all fun a => decide (a.stage ≠ .waitSpace)) : requestDone .release x =
      { x with
        journal.occupied := x.journal.occupied - x.journal.held
        journal.held := 0
        link.slot := .ready tag .ok [] lost } := by
  rw [requestDone_release hl h, spaceRetested_of_not_waiting (by exact hs)]

theorem nextCopyBegun_of_dirty {x : State} (h : x.journal.header.dirty = true) : nextCopyBegun x =
    (let generation := x.journal.header.generation + 1
     let copy : Copy := if x.journal.header.last = some .a then .b else .a
     { x with journal.header := ⟨generation, some copy, false, [],
        some ⟨copy, generation, (headerOf x generation).encode, 0, x.journal.header.next, .requested⟩⟩ }) :=
  if_pos h

theorem requestHeader_of_faulted {s : State} (h : s.epochs.engine = .faulted) (r : HeaderRequest) :
    requestHeader r s = failRequest s r := if_pos h

theorem requestHeader_of_free {s : State} (he : s.epochs.engine ≠ .faulted) (hj : s.journal.header.inFlight = none)
    (r : HeaderRequest) : requestHeader r s = beginRequested [r] s := by
  rw [requestHeader, if_neg he, hj]

theorem requestHeader_of_busy {s : State} (he : s.epochs.engine ≠ .faulted) {j : HeaderJob}
    (hj : s.journal.header.inFlight = some j) (r : HeaderRequest) : requestHeader r s =
      setHeader { s.journal.header with dirty := true, next := s.journal.header.next ++ [r] } s := by
  rw [requestHeader, if_neg he, hj]

/-- Settles O27: the request by its three cases, the dirty flag by `nextCopyBegun_of_dirty`. -/
theorem headerRequested : Obligations.HeaderRequested := by
  unfold Obligations.HeaderRequested
  dsimp only
  refine ⟨fun r s => ⟨fun he => requestHeader_of_faulted he r, fun he hj => ?_,
    fun j he hj => requestHeader_of_busy he hj r⟩, fun s generation g first rest hg ht => ?_,
    fun s addr data j h hj hb hk hd => ⟨fun hr => ⟨fun idle => ?_, fun a ha hs => ?_⟩,
      fun tag lost hr hl quiet hs => ?_⟩⟩
  · rw [requestHeader_of_free he hj, beginRequested, otherCopy_eq]
    rfl
  · simp [headerOf, hg, ht]
  · rw [exec_headerWriteDone_of_one h hj hb hk hr (requestDone_brk_of_not_waiting (by exact idle)),
      nextCopyBegun_of_dirty (by exact hd)]
    rfl
  · rw [exec_headerWriteDone_of_one h hj hb hk hr (requestDone_brk_of_waiting (by exact ha) hs),
      nextCopyBegun_of_dirty (by exact hd)]
    rfl
  · rw [exec_headerWriteDone_of_one h hj hb hk hr (requestDone_release_quiet (by exact hl) (by exact quiet) (by exact hs)),
      nextCopyBegun_of_dirty (by exact hd)]
    rfl

/-- Settles O30: one request by what it does when reported done, several by their fold. -/
theorem headerWriteComplete : Obligations.HeaderWriteComplete := by
  unfold Obligations.HeaderWriteComplete
  dsimp only
  refine ⟨fun s addr data j r h hj hb hk hr => ?_, fun s addr data j h hj hb hk =>
    exec_headerWriteDone_requested h hj hb hk⟩
  have one := @exec_headerWriteDone_of_one s addr data j h hj hb hk r hr
  refine ⟨?_, ?_, ?_, ?_, ?_, ?_, ?_, ?_, ?_, ?_⟩
  · rintro e c slot merged rfl hf he hm
    exact one (requestDone_checkpoint (by exact hf) (by exact .inr hm) e c slot merged)
  · rintro tag lost rfl hl quiet hs
    exact one (requestDone_release_quiet (by exact hl) (by exact quiet) (by exact hs))
  · rintro e rfl rfl
    exact ⟨fun idle => one (requestDone_brk_of_not_waiting (by exact idle)),
      fun a ha hs => one (requestDone_brk_of_waiting (by exact ha) hs)⟩
  · rintro rfl hw
    exact one (if_pos hw)
  · rintro header sc rfl he hrec
    exact one (requestDone_recover (by exact he) (by exact hrec))
  · rintro rfl he
    exact ⟨fun active => one (if_pos ⟨he, active⟩), fun h0 h1 => one (if_neg (by rintro ⟨-, m | m⟩; exacts [h0 m, h1 m]))⟩
  · rintro rfl
    exact one rfl
  · rintro rfl hw
    exact one (requestDone_start_of_stopped (by exact hw))
  · rintro e c slot merged rfl hf
    exact one (requestDone_checkpoint_of_dropped (by exact hf) e c slot merged)
  · rintro e rfl hne
    exact one (requestDone_brk_of_superseded (by exact hne))

/-! ## The completion of a MARKER (R74, R93, R135, R141) -/

theorem releaseWaitMarker_of_idle {s : State} (h : s.transit.access.all fun a => decide (a.stage ≠ .waitMarker)) :
    releaseWaitMarker s = s := by
  unfold releaseWaitMarker
  split
  · rfl
  · rename_i a ha
    rw [ha] at h
    exact if_neg (by simpa using h)

theorem releaseWaitMarker_of_waiting {s : State} {a : Access} (ha : s.transit.access = some a)
    (hs : a.stage = .waitMarker) : releaseWaitMarker s =
      setAccess { a with stage := .forward } (if a.slot.isSome then recordCapture (byteAddr a.ua) s else s) := by
  unfold releaseWaitMarker
  rw [ha]
  exact if_pos hs

theorem markerDone_cut {j : MarkerJob} (h : j.purpose = .cut) (s : State) : markerDone j s =
    requestHeader (.checkpoint j.epoch j.cause j.slot j.merged)
      (releaseWaitMarker { s with journal.marker := .none }) := by
  unfold markerDone
  rw [h]
  rfl

theorem markerDone_format {j : MarkerJob} {s : State} (h : j.purpose = .format) (he : s.epochs.engine = .formatting)
    (hf : s.epochs.format = .marker) :
    markerDone j s = formatCopyA (releaseWaitMarker { s with journal.marker := .none }) := by
  unfold markerDone
  rw [h]
  exact if_pos ⟨he, hf⟩

theorem markerDone_reopen {j : MarkerJob} {s : State} (h : j.purpose = .reopen) (he : s.epochs.engine = .rollingBack)
    (hw : s.epochs.walker.state = .reopen) :
    markerDone j s = reopenComplete (releaseWaitMarker { s with journal.marker := .none }) := by
  unfold markerDone
  rw [h]
  exact if_pos ⟨he, hw⟩

theorem exec_markerWriteDone_last {s : State} {addr : Nat} {data : List Byte} {j : MarkerJob}
    (h : writesJ s .marker addr data) (hj : s.journal.marker = .inFlight j) (hb : j.bursts = 5) :
    exec .markerWriteDone s = .next (arbitrate (markerDone j (landed addr (data.take 16) s))) := by
  rw [exec_markerWriteDone h hj, if_pos (by omega)]

theorem formatCopyA_of_free {s : State} (h : s.journal.header.inFlight = none) :
    formatCopyA s = beginHeader .formatA .a 1 [] { s with epochs.format := .copyA } := by
  unfold formatCopyA
  rw [h]
  rfl

theorem formatCopyA_of_busy {s : State} {j : HeaderJob} (h : s.journal.header.inFlight = some j) :
    formatCopyA s = { s with epochs.format := .copyA } := by
  unfold formatCopyA
  rw [h]
  rfl

theorem ne_mapId {i o : MapId} (h : o ≠ i) : (i = .m0 ∧ o = .m1) ∨ (i = .m1 ∧ o = .m0) := by
  cases i <;> cases o <;> simp_all

/-- Settles O28: the sixth burst by the MARKER's purpose, the swap by which map is ACTIVE. -/
theorem markerComplete_settled : Obligations.MarkerComplete := by
  unfold Obligations.MarkerComplete
  dsimp only
  refine ⟨fun s addr data j h hj hb hp => ⟨fun ha => ?_, fun a ha => ⟨fun hs => ?_, fun hs hk => ?_, fun hs hk => ?_⟩⟩,
    fun s addr data j h hj hb idle => ⟨fun hp he hf hn => ?_, fun h' hp he hf hn => ?_, fun hp he hw => ?_⟩,
    fun m i o w hw hi ho hq => ?_⟩
  · rw [exec_markerWriteDone_last h hj hb, markerDone_cut hp, releaseWaitMarker_of_idle]
    exact (congrArg (Option.all _) ha).trans rfl
  · rw [exec_markerWriteDone_last h hj hb, markerDone_cut hp, releaseWaitMarker_of_idle]
    exact (congrArg (Option.all _) ha).trans (by simpa using hs)
  · rw [exec_markerWriteDone_last h hj hb, markerDone_cut hp, releaseWaitMarker_of_waiting (by exact ha) hs, hk]
    rfl
  · rw [exec_markerWriteDone_last h hj hb, markerDone_cut hp, releaseWaitMarker_of_waiting (by exact ha) hs, if_pos hk]
    rfl
  · rw [exec_markerWriteDone_last h hj hb, markerDone_format hp (by exact he) (by exact hf),
      releaseWaitMarker_of_idle (by exact idle), formatCopyA_of_free (by exact hn)]
    rfl
  · rw [exec_markerWriteDone_last h hj hb, markerDone_format hp (by exact he) (by exact hf),
      releaseWaitMarker_of_idle (by exact idle), formatCopyA_of_busy (by exact hn)]
  · rw [exec_markerWriteDone_last h hj hb, markerDone_reopen hp (by exact he) (by exact hw),
      releaseWaitMarker_of_idle (by exact idle)]
    rfl
  · obtain ⟨⟨s0, b0⟩, ⟨s1, b1⟩, window, running, queued⟩ := m
    cases hw
    cases hq
    obtain ⟨rfl, rfl⟩ | ⟨rfl, rfl⟩ := ne_mapId ho
    all_goals
      refine ⟨fun hc hr => ?_, fun r hc hr hm => ?_⟩ <;> simp only [CaptureMaps.get] at hi hc <;> subst hi hc hr
      · rfl
      · simp [swapMaps, CaptureMaps.find, requestSweep, CaptureMaps.setState, CaptureMaps.put, CaptureMaps.get, hm]

/-! ## Failures of the journal's own writes (R74, R78, R82) -/

theorem exec_markerWriteJerr {s : State} {addr : Nat} {data : List Byte} {j : MarkerJob}
    (h : writesJ s .marker addr data) (hj : s.journal.marker = .inFlight j) (beats : Fin 4) :
    exec (.markerWriteJerr beats) s = .next (arbitrate
      (markerFailed j (post (.portError .markerWrite addr) (landed addr (data.take (4 * beats.val)) s)))) := by
  show execMarkerWriteJerr beats s = _
  unfold execMarkerWriteJerr
  rw [act_of_live h.1, jOwned_of_write h]
  dsimp only
  rw [failJ_of_write, hj]

theorem exec_headerWriteJerr {s : State} {addr : Nat} {data : List Byte} {j : HeaderJob}
    (h : writesJ s .header addr data) (hj : s.journal.header.inFlight = some j) (beats : Fin 4) :
    exec (.headerWriteJerr beats) s = .next (arbitrate
      (headerFailed j (post (.portError .headerWrite addr) (landed addr (data.take (4 * beats.val)) s)))) := by
  show execHeaderWriteJerr beats s = _
  unfold execHeaderWriteJerr
  rw [act_of_live h.1, jOwned_of_write h]
  dsimp only
  rw [failJ_of_write, hj]

theorem faults_iff (e : Engine) : e.faults = true ↔ e ∈ [.journaling, .rollingBack, .settling, .held] := by
  cases e <;> decide

theorem markerFailed_of_formatting {j : MarkerJob} {s : State} (h : s.epochs.engine = .formatting) :
    markerFailed j s = formatFail { s with journal.marker := .failed j.epoch j.slot } := if_pos h

theorem markerFailed_of_faults {j : MarkerJob} {s : State} (h : s.epochs.engine.faults = true) :
    markerFailed j s = faulted { s with journal.marker := .failed j.epoch j.slot } := by
  unfold markerFailed
  rw [if_neg (fun he => by rw [he] at h; cases h), if_pos h, enterFaulted_eq]
  rfl

theorem markerFailed_of_faulted {j : MarkerJob} {s : State} (h : s.epochs.engine = .faulted) :
    markerFailed j s = { s with journal.marker := .failed j.epoch j.slot } := by
  unfold markerFailed
  rw [h]
  rfl

/-- Settles O29: by the engine state the failure finds. -/
theorem markerError : Obligations.MarkerError := by
  unfold Obligations.MarkerError
  dsimp only
  refine fun s addr data j beats h hj => ⟨fun he => ?_, fun he => ?_, fun he => ?_⟩
  · rw [exec_markerWriteJerr h hj, markerFailed_of_faults (by rw [post_eq]; exact (faults_iff _).mpr he)]
  · rw [exec_markerWriteJerr h hj, markerFailed_of_formatting (by rw [post_eq]; exact he)]
    rfl
  · rw [exec_markerWriteJerr h hj, markerFailed_of_faulted (by rw [post_eq]; exact he)]

/-! ### What entering FAULTED leaves of the Epoch Controller -/

/-- The engine state and the walker are as they were. -/
def SameEngine (s t : State) : Prop := t.epochs.engine = s.epochs.engine ∧ t.epochs.walker = s.epochs.walker

theorem SameEngine.trans {s t u : State} (h : SameEngine s t) (k : SameEngine t u) : SameEngine s u :=
  ⟨k.1.trans h.1, k.2.trans h.2⟩

theorem SameEngine.of_epochs {s t : State} (h : t.epochs = s.epochs) : SameEngine s t := by
  simp [SameEngine, h]

theorem takeCommit_epochs (s : State) : (takeCommit s).epochs = s.epochs := by
  unfold takeCommit
  split
  · dsimp only
    split <;> rw [answer_eq] <;> rfl
  · rfl

/-- In a state that takes neither a cut nor a start the access boundary leaves the engine and the walker. -/
theorem claimTaken_sameEngine {s : State} (h : s.epochs.engine ≠ .journaling) (h' : s.epochs.engine ≠ .held) :
    SameEngine s (claimTaken s) := by
  unfold claimTaken
  split
  · exact .of_epochs (takeCommit_epochs s)
  · unfold takeCut
    split
    · exact ⟨rfl, rfl⟩
    · dsimp only
      rw [if_neg fun hc => h hc.1]
      exact ⟨rfl, rfl⟩
  · unfold takeStart
    split
    · exact ⟨rfl, rfl⟩
    · dsimp only
      rw [if_neg (by simp [h, h'])]
      exact ⟨rfl, rfl⟩
  · exact ⟨rfl, rfl⟩

theorem refuseAccess_sameEngine {s : State} (h : s.epochs.engine ≠ .journaling) (h' : s.epochs.engine ≠ .held)
    (a : Access) (e : Engine) : SameEngine s (refuseAccess a e s) := by
  rw [refuseAccess_eq, post_eq]
  exact claimTaken_sameEngine (by exact h) (by exact h')

theorem settleCapture_sameEngine (a : Access) (e : Engine) (s : State) : SameEngine s (settleCapture a e s) := by
  unfold settleCapture
  split
  · split <;> exact ⟨rfl, rfl⟩
  · exact ⟨rfl, rfl⟩

theorem cutAccess_sameEngine {s : State} (h : s.epochs.engine ≠ .journaling) (h' : s.epochs.engine ≠ .held)
    (e : Engine) : SameEngine s (cutAccess e s) := by
  have refused {a : Access} {t : State} (k : SameEngine s t) : SameEngine s (refuseAccess a e t) :=
    k.trans (refuseAccess_sameEngine (by rw [k.1]; exact h) (by rw [k.1]; exact h') a e)
  have self : SameEngine s s := ⟨rfl, rfl⟩
  unfold cutAccess
  split
  · exact self
  · split
    · split
      · split
        · split
          · split
            · exact ⟨rfl, rfl⟩
            · rw [post_eq]
              exact ⟨rfl, rfl⟩
          · exact refused ⟨rfl, rfl⟩
        · exact refused self
      · exact refused (settleCapture_sameEngine _ _ s)
      · refine refused (SameEngine.trans (.of_epochs ?_) (settleCapture_sameEngine _ _ _))
        rw [disownJ_eq]
      · exact refused (settleCapture_sameEngine _ _ s)
      · exact refused self
      · exact refused self
      · exact self
    · exact self

theorem faulted_engine (s : State) : (faulted s).epochs.engine = .faulted := by
  unfold faulted
  exact (cutAccess_sameEngine (by simp) (by simp) _).1

theorem faulted_walker (s : State) : (faulted s).epochs.walker = { Walker.powerOn with target := s.epochs.walker.target } := by
  unfold faulted
  exact (cutAccess_sameEngine (by simp) (by simp) _).2

/-! ### The failure of a header write -/

theorem headerFailed_of_faults {j : HeaderJob} {s : State} (hk : j.kind = .requested)
    (h : s.epochs.engine.faults = true) : headerFailed j s =
      (let x := faulted { s with journal.header.inFlight := none }
       { x with link.slot := releaseFailed j.requests x.link.slot }) := by
  unfold headerFailed
  rw [hk]
  dsimp only
  rw [if_pos h, enterFaulted_eq, failRequests_eq]
  · rfl
  · simp [faulted_engine]
  · rw [faulted_walker]
    rfl

theorem headerFailed_of_requested {j : HeaderJob} {s : State} (hk : j.kind = .requested)
    (h : s.epochs.engine.faults = false) (hw : s.epochs.walker.state = .stopped)
    (hr : s.epochs.engine = .recovering → HeaderRequest.recover ∉ s.journal.header.next) :
    headerFailed j s = failRequests j.requests { s with
      journal.header.inFlight := none
      journal.header.dirty := false
      journal.header.next := []
      link.slot := releaseFailed s.journal.header.next s.link.slot } := by
  unfold headerFailed
  rw [hk]
  dsimp only
  rw [if_neg (by simp [h])]
  congr 1
  rw [failRequests_eq _ (by exact hr) (by exact hw)]
  rfl

theorem headerFailed_of_format {j : HeaderJob} (hk : j.kind = .formatA ∨ j.kind = .formatB) (s : State) :
    headerFailed j s = formatFail { s with journal.header.inFlight := none } := by
  unfold headerFailed
  rcases hk with hk | hk <;> rw [hk] <;> rfl

theorem headerFailed_of_abandoned {j : HeaderJob} (hk : j.kind = .abandoned) (s : State) :
    headerFailed j s = resumeFormat { s with journal.header.inFlight := none } := by
  unfold headerFailed
  rw [hk]
  rfl

theorem resumeFormat_of_waiting {s : State} (he : s.epochs.engine = .formatting) (hf : s.epochs.format = .copyA) :
    resumeFormat s = formatCopyA s := if_pos ⟨he, hf⟩

theorem resumeFormat_of_not {s : State} (h : s.epochs.engine ≠ .formatting ∨ s.epochs.format ≠ .copyA) :
    resumeFormat s = s := by
  refine if_neg ?_
  rintro ⟨he, hf⟩
  exact h.elim (· he) (· hf)

/-- FORMAT's copy A begun in the stage already entered. -/
theorem resumeFormat_copyA {s : State} (he : s.epochs.engine = .formatting) (hf : s.epochs.format = .copyA)
    (hn : s.journal.header.inFlight = none) : resumeFormat s = { s with
      journal.header.generation := 1
      journal.header.last := some .a
      journal.header.inFlight := some ⟨.a, 1, (headerOf s 1).encode, 0, [], .formatA⟩ } := by
  have same : { s with epochs.format := .copyA } = s := by rw [← hf]
  rw [resumeFormat_of_waiting he hf, formatCopyA_of_free hn, same]
  rfl

/-- Settles O32: by what the write belonged to. -/
theorem headerError : Obligations.HeaderError := by
  unfold Obligations.HeaderError
  dsimp only
  refine fun s addr data j beats h hj => ⟨fun hk he => ?_, fun hk he hw => ?_, fun header sc hk hr he hrec hw hn => ?_,
    fun hk => ?_, fun hk => ⟨fun hn => ?_, fun he hf => ?_⟩⟩
  · rw [exec_headerWriteJerr h hj, headerFailed_of_faults hk (by rw [post_eq]; exact (faults_iff _).mpr he)]
  · rw [exec_headerWriteJerr h hj, headerFailed_of_requested hk (by rw [post_eq]; exact congrArg Engine.faults he)
      (by rw [post_eq]; exact hw) (by rw [post_eq]; exact fun e => nomatch he.symm.trans e),
      failRequests_eq _ (by rw [post_eq]; exact fun e => nomatch he.symm.trans e)
        (by rw [post_eq]; exact hw)]
    dsimp only
    rw [releaseFailed_append, post_eq]
    rfl
  · rw [exec_headerWriteJerr h hj, headerFailed_of_requested hk (by rw [post_eq]; exact congrArg Engine.faults he)
      (by rw [post_eq]; exact hw) (by rw [post_eq]; exact fun _ => hn), hr]
    show _ = Host.Outcome.next (arbitrate _)
    rw [failRequests, List.foldl_cons, List.foldl_nil, failRequest, if_pos (by rw [post_eq]; exact he), post_eq]
    rfl
  · rw [exec_headerWriteJerr h hj, headerFailed_of_format hk]
    rfl
  · rw [exec_headerWriteJerr h hj, headerFailed_of_abandoned hk, resumeFormat_of_not (by rw [post_eq]; exact hn)]
  · rw [exec_headerWriteJerr h hj, headerFailed_of_abandoned hk, resumeFormat_copyA (by rw [post_eq]; exact he)
      (by rw [post_eq]; exact hf) rfl]

/-! ## The ends of FORMAT's copies (R141) -/

theorem exec_headerWriteDone_last {s : State} {addr : Nat} {data : List Byte} {j : HeaderJob}
    (h : writesJ s .header addr data) (hj : s.journal.header.inFlight = some j) (hb : j.bursts = 7) :
    exec .headerWriteDone s = .next (arbitrate (headerDone j (landed addr (data.take 16) s))) := by
  rw [exec_headerWriteDone h hj, if_pos (by omega)]

theorem headerDone_of_formatA {j : HeaderJob} (h : j.kind = .formatA) (s : State) : headerDone j s =
    beginHeader .formatB .b 2 [] { s with journal.header.inFlight := none, epochs.format := .copyB } := by
  unfold headerDone
  rw [h]
  rfl

theorem headerDone_of_formatB {j : HeaderJob} (h : j.kind = .formatB) (s : State) : headerDone j s =
    formatDone { s with journal.header.inFlight := none } := by
  unfold headerDone
  rw [h]
  rfl

theorem headerDone_of_abandoned {j : HeaderJob} (h : j.kind = .abandoned) (s : State) : headerDone j s =
    resumeFormat { s with journal.header.inFlight := none } := by
  unfold headerDone
  rw [h]
  rfl

/-- Settles O31: by the copy that ends. -/
theorem formatCopiesComplete : Obligations.FormatCopiesComplete := by
  unfold Obligations.FormatCopiesComplete
  dsimp only
  refine fun s addr data j h hj hb => ⟨fun hk => ?_, fun hk => ?_, fun hk => ⟨fun hn => ?_, fun he hf => ?_⟩⟩
  · rw [exec_headerWriteDone_last h hj hb, headerDone_of_formatA hk]
    rfl
  · rw [exec_headerWriteDone_last h hj hb, headerDone_of_formatB hk]
    rfl
  · rw [exec_headerWriteDone_last h hj hb, headerDone_of_abandoned hk, resumeFormat_of_not (by exact hn)]
  · rw [exec_headerWriteDone_last h hj hb, headerDone_of_abandoned hk, resumeFormat_copyA (by exact he) (by exact hf) rfl]

end Sys2Proof.Machine
end

section
/-! Chapters 3, 5 and 7: the end of a sweep, the cut and its conditions, and the start of a rollback (R52 to R57, R89 to
R93, R98, R119). -/

namespace Sys2Proof.Machine

open Sys2Proof.Safety

/-! ## The end of a sweep (R53 to R57) -/

theorem exec_sweepComplete {s : State} (h : live s) {r : Sweep} (hr : s.maps.running = some r) :
    exec .sweepComplete s = .next (arbitrate (sweepDone r s)) := by
  show execSweepComplete s = _
  unfold execSweepComplete
  rw [act_of_live h]
  simp only [hr]

/-- The map a sweep leaves: CLEAN, with the range it was started over cleared. -/
def sweptMap (r : Sweep) (m : CaptureMaps) : CaptureMap := ⟨.clean, sweptBits (m.get r.map).bits r.bits⟩

theorem endSweep_eq {m : CaptureMaps} {r : Sweep} (h : m.running = some r) : endSweep m =
    { m.put r.map (sweptMap r m) with running := m.queued.map fun q => ⟨q, m.bitsInUse⟩, queued := none } := by
  unfold endSweep
  rw [h]
  dsimp only
  have queued : (m.put r.map (sweptMap r m)).queued = m.queued := put_queued _ _ _
  cases hq : m.queued with
  | some q => rfl
  | none =>
    rw [hq] at queued
    show CaptureMaps.mk _ _ _ none (m.put r.map (sweptMap r m)).queued = CaptureMaps.mk _ _ _ none none
    rw [queued]
    rfl

theorem get_endSweep {m : CaptureMaps} {r : Sweep} (h : m.running = some r) :
    (endSweep m).get r.map = sweptMap r m := by
  rw [endSweep_eq h]
  cases r.map <;> rfl

theorem endSweep_window {m : CaptureMaps} {r : Sweep} (h : m.running = some r) : (endSweep m).window = m.window := by
  rw [endSweep_eq h]
  exact put_window _ _ _

/-- The state of the map that is not named. -/
def otherState (m : CaptureMaps) (i : MapId) : MapState :=
  match i with
  | .m0 => m.m1.state
  | .m1 => m.m0.state

theorem endSweep_find_active {m : CaptureMaps} {r : Sweep} (h : m.running = some r) :
    (endSweep m).find .active = none ↔ otherState m r.map ≠ .active := by
  rw [← not_iff_not, not_not]
  refine (find_active_ne_none _).trans ?_
  rw [endSweep_eq h]
  cases hm : r.map <;> simp [CaptureMaps.put, otherState, sweptMap]

theorem endSweep_both_clean {m : CaptureMaps} {r : Sweep} (h : m.running = some r) :
    ((endSweep m).m0.state = .clean ∧ (endSweep m).m1.state = .clean) ↔ otherState m r.map = .clean := by
  rw [endSweep_eq h]
  cases hm : r.map <;> simp [CaptureMaps.put, otherState, sweptMap]

theorem sweepDone_of_idle {s : State} (h : s.epochs.engine ∈ [.offline, .rollingBack, .held, .faulted] ∨
    (s.epochs.engine = .journaling ∧ s.epochs.pendingMark = 0)) (r : Sweep) :
    sweepDone r s = { s with maps := endSweep s.maps } := by
  unfold sweepDone
  simp only [List.mem_cons, List.not_mem_nil, or_false] at h
  rcases h with (h | h | h | h) | ⟨h, hm⟩ <;> rw [h] <;> dsimp only
  case inr => rw [reevaluate_eq, markReevaluated_of_none (by exact .inr hm)]; rfl
  all_goals rfl

theorem sweepDone_of_journaling {s : State} (h : s.epochs.engine = .journaling) (r : Sweep) :
    sweepDone r s = markReevaluated { s with maps := endSweep s.maps } := by
  unfold sweepDone
  rw [h]
  exact reevaluate_eq _

theorem sweepDone_of_settling {s : State} (h : s.epochs.engine = .settling) (r : Sweep) :
    sweepDone r s = finishSettling (settleMap r.map { s with maps := endSweep s.maps }) := by
  unfold sweepDone
  rw [h]
  rfl

theorem finishSettling_of_not_done {s : State} (h : s.epochs.settleDone = false) : finishSettling s = s := by
  refine if_neg ?_
  rintro ⟨-, hd, -⟩
  simp [h] at hd

theorem finishSettling_of_done {s : State} (he : s.epochs.engine = .settling) (hd : s.epochs.settleDone = true)
    (hm : s.maps.find .active ≠ none) : finishSettling s =
      post (.rollbackDone s.epochs.walker.target s.currentEpoch) { s with epochs.engine := .journaling } :=
  if_pos ⟨he, hd, hm⟩

theorem settleMap_of_none {i : MapId} {s : State} (h : s.maps.find .active = none) :
    settleMap i s = { s with maps := s.maps.setState i .active } := if_pos h

theorem settleMap_of_some {i : MapId} {s : State} (h : s.maps.find .active ≠ none) : settleMap i s = s := if_neg h

theorem setState_endSweep {m : CaptureMaps} {r : Sweep} (h : m.running = some r) (x : MapState) :
    (endSweep m).setState r.map x = (endSweep m).put r.map { sweptMap r m with state := x } := by
  rw [CaptureMaps.setState, get_endSweep h]

theorem find_active_setState (m : CaptureMaps) (i : MapId) : (m.setState i .active).find .active ≠ none := by
  rw [find_active_ne_none]
  cases i
  · exact .inl rfl
  · exact .inr rfl

/-- The stages of FORMAT and RECOVER that wait for the sweep of both maps (R56, R57). -/
def sweepAwaited (s : State) : Prop :=
  s.epochs.engine = .formatting ∧ s.epochs.format = .sweep ∨
    s.epochs.engine = .recovering ∧ ∃ h : Header, s.epochs.recovery = .sweep h

theorem sweepDone_of_formatting {s : State} (he : s.epochs.engine = .formatting) (hf : s.epochs.format = .sweep)
    (r : Sweep) : sweepDone r s = sweepStage r formatMarker { s with maps := endSweep s.maps } := by
  unfold sweepDone
  rw [he]
  dsimp only
  rw [if_pos hf]
  rfl

theorem sweepDone_of_recovering {s : State} {h : Header} (he : s.epochs.engine = .recovering)
    (hr : s.epochs.recovery = .sweep h) (r : Sweep) :
    sweepDone r s = sweepStage r (beginScan h) { s with maps := endSweep s.maps } := by
  unfold sweepDone
  rw [he]
  dsimp only
  rw [hr]
  rfl

theorem sweepDone_of_awaited {s : State} (h : sweepAwaited s) (r : Sweep) :
    ∃ next : State → State, sweepDone r s = sweepStage r next { s with maps := endSweep s.maps } := by
  rcases h with ⟨he, hf⟩ | ⟨he, header, hr⟩
  · exact ⟨_, sweepDone_of_formatting he hf r⟩
  · exact ⟨_, sweepDone_of_recovering he hr r⟩

theorem sweepDone_of_not_awaited {s : State} (he : s.epochs.engine ∈ [.formatting, .recovering])
    (h : ¬ sweepAwaited s) (r : Sweep) : sweepDone r s = { s with maps := endSweep s.maps } := by
  simp only [List.mem_cons, List.not_mem_nil, or_false] at he
  unfold sweepDone
  rcases he with he | he <;> rw [he] <;> dsimp only
  · exact if_neg fun hf => h (.inl ⟨he, hf⟩)
  · split
    · rename_i header hr
      exact absurd (.inr ⟨he, header, hr⟩) h
    all_goals rfl

theorem bitsInUse_of_window {m : CaptureMaps} {w : Window} (h : m.window = some w) : m.bitsInUse = w.bits := by
  rw [CaptureMaps.bitsInUse, h]

theorem bitsInUse_endSweep {m : CaptureMaps} {r : Sweep} (h : m.running = some r) {w : Window}
    (hw : m.window = some w) : (endSweep m).bitsInUse = w.bits :=
  bitsInUse_of_window ((endSweep_window h).trans hw)

theorem sweepStage_of_again {r : Sweep} {s : State} (h : r.bits ≠ s.maps.bitsInUse) (next : State → State) :
    sweepStage r next s = { s with maps := requestSweep r.map s.maps } := if_pos h

theorem sweepStage_of_first {r : Sweep} {s : State} (h : r.bits = s.maps.bitsInUse)
    (hc : ¬ (s.maps.m0.state = .clean ∧ s.maps.m1.state = .clean)) (next : State → State) :
    sweepStage r next s = s := by
  rw [sweepStage, if_neg (by simp [h]), if_neg hc]

theorem sweepStage_of_second {r : Sweep} {s : State} (h : r.bits = s.maps.bitsInUse)
    (hc : s.maps.m0.state = .clean ∧ s.maps.m1.state = .clean) (next : State → State) :
    sweepStage r next s = next s := by
  rw [sweepStage, if_neg (by simp [h]), if_pos hc]

theorem requestSweep_of_free {i : MapId} {m : CaptureMaps} {w : Window} (hw : m.window = some w)
    (hr : m.running = none) (hq : m.queued = none) :
    requestSweep i m = { m.setState i .sweeping with running := some ⟨i, w.bits⟩ } := by
  simp [requestSweep, hw, hr, hq, CaptureMaps.bitsInUse]

theorem requestSweep_of_busy {i : MapId} {m : CaptureMaps} {w : Window} (hw : m.window = some w) {r : Sweep}
    (hr : m.running = some r) (hi : r.map ≠ i) (hq : m.queued = none) :
    requestSweep i m = { m.setState i .sweeping with queued := some i } := by
  simp [requestSweep, hw, hr, hq, hi]

/-- FORMAT's marker stage begins: epoch 1 in slot 0 with sequence 1 (R141). -/
theorem formatMarker_eq {s : State} {g : Geometry} (hg : s.journal.geometry = some g) : formatMarker s = { s with
    epochs.table := [⟨1, 0, 1, 0, .format⟩]
    epochs.lastUsed := 1
    epochs.format := .marker
    journal.head := 0
    journal.tail := 1
    journal.occupied := 1
    journal.held := 0
    journal.sequence := 2
    journal.marker := .inFlight ⟨1, 0, .format, .format, 0, markerRecord g.identity 1 1 .format 0 0, 0⟩ } := by
  have identity : (s.journal.geometry.map (·.identity)).getD 0 = g.identity := by rw [hg]; rfl
  rw [← identity]
  rfl

/-- Settles O33: the end of the sweep, then what the engine state decides. -/
theorem sweepCompletes : Obligations.SweepCompletes := by
  unfold Obligations.SweepCompletes
  dsimp only
  refine ⟨fun s r hlive hr => ?_, fun s r hlive hr => ?_⟩
  · have ends := exec_sweepComplete hlive hr
    have swept := endSweep_eq hr
    refine ⟨fun he => ?_, fun he ho => ?_, fun he ho => ?_⟩
    · rw [ends, sweepDone_of_idle he, swept]
      rfl
    · have active : settleMap r.map { s with maps := endSweep s.maps } =
          { s with maps := (endSweep s.maps).put r.map { sweptMap r s.maps with state := .active } } := by
        rw [settleMap_of_none (by exact (endSweep_find_active hr).mpr ho)]
        exact congrArg s.setMaps (setState_endSweep hr .active)
      have found : ((endSweep s.maps).put r.map { sweptMap r s.maps with state := .active }).find .active ≠ none := by
        rw [← setState_endSweep hr]
        exact find_active_setState _ _
      refine ⟨fun hd => ?_, fun hd => ?_⟩
      · rw [ends, sweepDone_of_settling he, active, finishSettling_of_not_done (by exact hd), swept]
        rfl
      · rw [ends, sweepDone_of_settling he, active, finishSettling_of_done (by exact he) (by exact hd) (by exact found),
          swept]
        rfl
    · have found : (endSweep s.maps).find .active ≠ none := fun h => (endSweep_find_active hr).mp h ho
      refine ⟨fun hd => ?_, fun hd => ?_⟩
      · rw [ends, sweepDone_of_settling he, settleMap_of_some (by exact found),
          finishSettling_of_not_done (by exact hd), swept]
        rfl
      · rw [ends, sweepDone_of_settling he, settleMap_of_some (by exact found),
          finishSettling_of_done (by exact he) (by exact hd) (by exact found), swept]
        rfl
  · have ends := exec_sweepComplete hlive hr
    have swept := endSweep_eq hr
    refine ⟨fun he hn => ?_, fun w wait hw hb => ⟨fun hq => ?_, fun q hq hne => ?_⟩, fun w wait hw hb ho => ?_,
      fun g he hf hw hb ho hg => ?_, fun h w he hrec hw hb ho => ?_⟩
    · rw [ends, sweepDone_of_not_awaited he hn, swept]
      rfl
    · obtain ⟨next, effect⟩ := sweepDone_of_awaited wait r
      rw [ends, effect, sweepStage_of_again (by rw [bitsInUse_endSweep hr hw]; exact hb),
        requestSweep_of_free (by exact (endSweep_window hr).trans hw) (by rw [swept, hq]; rfl) (by rw [swept]),
        setState_endSweep hr, swept]
      rfl
    · obtain ⟨next, effect⟩ := sweepDone_of_awaited wait r
      rw [ends, effect, sweepStage_of_again (by rw [bitsInUse_endSweep hr hw]; exact hb),
        requestSweep_of_busy (r := ⟨q, s.maps.bitsInUse⟩) (by exact (endSweep_window hr).trans hw)
          (by rw [swept, hq]; rfl) (by exact hne) (by rw [swept]),
        setState_endSweep hr, swept, hq, bitsInUse_of_window hw]
      obtain ⟨i, n⟩ := r
      cases i <;> rfl
    · obtain ⟨next, effect⟩ := sweepDone_of_awaited wait r
      rw [ends, effect, sweepStage_of_first (by exact hb.trans (bitsInUse_endSweep hr hw).symm)
        (by exact fun hc => ho ((endSweep_both_clean hr).mp hc)), swept]
      rfl
    · rw [ends, sweepDone_of_formatting he hf, sweepStage_of_second (by exact hb.trans (bitsInUse_endSweep hr hw).symm)
        (by exact (endSweep_both_clean hr).mpr ho), formatMarker_eq (by exact hg), swept]
      rfl
    · rw [ends, sweepDone_of_recovering he hrec, sweepStage_of_second
        (by exact hb.trans (bitsInUse_endSweep hr hw).symm) (by exact (endSweep_both_clean hr).mpr ho), swept]
      rfl

/-! ## The cut (R89 to R92) -/

theorem find_ne_none (m : CaptureMaps) (x : MapState) : m.find x ≠ none ↔ m.m0.state = x ∨ m.m1.state = x := by
  unfold CaptureMaps.find
  by_cases h0 : m.m0.state = x <;> by_cases h1 : m.m1.state = x <;> simp [h0, h1]

/-- A cut as the state shows it. -/
theorem cut_eq {s : State} {g : Geometry} (hg : s.journal.geometry = some g) (b : CutBy) : cut b s =
    { lowWater s.free (slotTaken s) with
      epochs.lastUsed := s.epochs.lastUsed + 1
      epochs.table := s.epochs.table ++
        [⟨s.epochs.lastUsed + 1, s.journal.tail, s.journal.sequence, 0, cutCause b s.epochs.pendingMark⟩]
      epochs.pendingMark := 0
      maps := swapMaps s.maps
      journal.marker := .inFlight ⟨s.epochs.lastUsed + 1, s.journal.tail, .cut, cutCause b s.epochs.pendingMark,
        s.epochs.pendingMark, markerRecord g.identity s.journal.sequence (s.epochs.lastUsed + 1)
          (cutCause b s.epochs.pendingMark) s.epochs.pendingMark 0, 0⟩ } := by
  have identity : (s.journal.geometry.map (·.identity)).getD 0 = g.identity := by rw [hg]; rfl
  unfold cut
  rw [← identity, allocate_eq, lowWater_eq]
  rfl

theorem takeCut_of_taken {s : State} {b : CutBy} (hc : s.transit.claims.cut = some b)
    (he : s.epochs.engine = .journaling) (hf : s.epochs.ckptInFlight = true) :
    takeCut s = cut b { s with transit.claims.cut := none } := by
  unfold takeCut
  rw [hc]
  exact if_pos ⟨he, hf⟩

theorem takeCut_of_dropped {s : State} {b : CutBy} (hc : s.transit.claims.cut = some b)
    (h : s.epochs.engine ≠ .journaling ∨ s.epochs.ckptInFlight = false) :
    takeCut s = { s with transit.claims.cut := none, epochs.ckptInFlight := false } := by
  unfold takeCut
  rw [hc]
  refine if_neg ?_
  rintro ⟨he, hf⟩
  rcases h with h | h
  · exact h he
  · simp [h] at hf

/-- The swap of two maps with no sweep under way. -/
theorem swapMaps_of_idle {m : CaptureMaps} {w : Window} {i : MapId} (hw : m.window = some w)
    (hi : (m.get i).state = .active) (ho : otherState m i = .clean) (hr : m.running = none) (hq : m.queued = none) :
    swapMaps m = match i with
      | .m0 => ⟨⟨.sweeping, m.m0.bits⟩, ⟨.active, m.m1.bits⟩, some w, some ⟨.m0, w.bits⟩, none⟩
      | .m1 => ⟨⟨.active, m.m0.bits⟩, ⟨.sweeping, m.m1.bits⟩, some w, some ⟨.m1, w.bits⟩, none⟩ := by
  obtain ⟨⟨s0, b0⟩, ⟨s1, b1⟩, window, running, queued⟩ := m
  cases hw
  cases hr
  cases hq
  cases i <;> (cases hi; cases ho; rfl)

/-- The claim left alone beside a cut just taken, by its own command. -/
theorem claimTaken_after_cut {x : State} {c : Claims} (hp : x.porn = false) (ha : x.transit.access = none)
    (hc : x.transit.claims = { c with cut := none }) :
    (.next (arbitrate (claimTaken x)) : Host.Outcome State Fault Refusal) = match c.commit, c.start with
      | false, none => .next (arbitrate x)
      | true, none => exec .commitTaken x
      | false, some _ => exec .rollbackStart x
      | true, some _ => .next (arbitrate x) := by
  rcases c with ⟨_ | _, cut, _ | k⟩ <;> dsimp only
  · rw [claimTaken_of_no_claim hc]
  · rw [exec_rollbackStart_alone hp ha hc]
  · rw [exec_commitTaken_alone hp ha hc]
  · rw [claimTaken, hc]

theorem exec_cutTaken_of_none {s : State} (hp : s.porn = false)
    (h : s.transit.access.isSome ∨ s.transit.claims.cut = none) : exec .cutTaken s = .next (arbitrate s) := by
  show execCutTaken s = _
  unfold execCutTaken
  rw [actOnClaims_of_live hp, if_neg]
  rcases h with h | h
  · simp [atBoundary, Option.ne_none_iff_isSome.mpr h]
  · simp [h]

/-- Settles O34: the cut by `cut_eq` and the swap by `swapMaps_of_idle`, then the claim beside it. -/
theorem cutTaken : Obligations.CutTaken := by
  unfold Obligations.CutTaken
  dsimp only
  refine ⟨fun s b hp ha hc => ⟨fun g w i he hf hg hw hi ho hr hq => ?_, fun dropped => ?_⟩,
    fun s hp h => exec_cutTaken_of_none hp h⟩
  · have swap := swapMaps_of_idle hw hi ho hr hq
    rw [exec_cutTaken hp ha (by rw [hc]; rfl), takeCut_of_taken hc he hf, cut_eq (by exact hg), lowWater_eq, lowWater_eq]
    dsimp only
    rw [swap]
    cases i <;> cases b <;> exact claimTaken_after_cut (c := s.transit.claims) hp ha rfl
  · rw [exec_cutTaken hp ha (by rw [hc]; rfl), takeCut_of_dropped hc dropped]
    exact claimTaken_after_cut (c := s.transit.claims) hp ha rfl

/-! ## The start of a rollback (R119) -/

/-- The claim left alone beside a start just taken, by its own command. -/
theorem claimTaken_after_start {x : State} {c : Claims} (hp : x.porn = false) (ha : x.transit.access = none)
    (hc : x.transit.claims = { c with start := none }) :
    (.next (arbitrate (claimTaken x)) : Host.Outcome State Fault Refusal) = match c.commit, c.cut with
      | false, none => .next (arbitrate x)
      | true, none => exec .commitTaken x
      | false, some _ => exec .cutTaken x
      | true, some _ => .next (arbitrate x) := by
  rcases c with ⟨_ | _, _ | b, start⟩ <;> dsimp only
  · rw [claimTaken_of_no_claim hc]
  · rw [exec_cutTaken_alone hp ha hc]
  · rw [exec_commitTaken_alone hp ha hc]
  · rw [claimTaken, hc]

theorem exec_rollbackStart_of_none {s : State} (hp : s.porn = false)
    (h : s.transit.access.isSome ∨ s.transit.claims.start = none) : exec .rollbackStart s = .next (arbitrate s) := by
  show execRollbackStart s = _
  unfold execRollbackStart
  rw [actOnClaims_of_live hp, if_neg]
  rcases h with h | h
  · simp [atBoundary, Option.ne_none_iff_isSome.mpr h]
  · simp [h]

theorem takeStart_of_taken {s : State} {k : Word} (hc : s.transit.claims.start = some k)
    (h : s.epochs.engine = .journaling ∨ s.epochs.engine = .held) : takeStart s = requestHeader .start { s with
      transit.claims.start := none
      epochs.startClaimed := false
      epochs.pendingTarget := k
      epochs.engine := .rollingBack
      epochs.walker.state := .waitStart
      epochs.walker.target := k } := by
  unfold takeStart
  rw [hc]
  exact if_pos h

theorem takeStart_of_dropped {s : State} {k : Word} (hc : s.transit.claims.start = some k)
    (h : ¬ (s.epochs.engine = .journaling ∨ s.epochs.engine = .held)) :
    takeStart s = { s with transit.claims.start := none, epochs.startClaimed := false } := by
  unfold takeStart
  rw [hc]
  exact if_neg h

theorem requestHeader_inner_porn (r : HeaderRequest) (s : State) : (requestHeader r s).porn = s.porn :=
  (requestHeader_inner r s).porn

/-- Settles O36: the start taken or dropped, then the claim beside it. -/
theorem rollbackStart : Obligations.RollbackStart := by
  unfold Obligations.RollbackStart
  dsimp only
  refine ⟨fun s k hp ha hc => ⟨fun he => ?_, fun h1 h2 => ?_⟩, fun s hp h => exec_rollbackStart_of_none hp h⟩
  · rw [exec_rollbackStart hp ha (by rw [hc]; rfl), takeStart_of_taken hc he]
    refine claimTaken_after_start (c := s.transit.claims) ((requestHeader_inner_porn _ _).trans hp) ?_ ?_
    · rw [requestHeader_start_transit (by simp)]
      exact ha
    · rw [requestHeader_start_transit (by simp)]
  · rw [exec_rollbackStart hp ha (by rw [hc]; rfl), takeStart_of_dropped hc (by simp [h1, h2])]
    exact claimTaken_after_start (c := s.transit.claims) hp ha rfl

/-! ## The cut conditions and the pending mark (R89, R98) -/

theorem free_lt_one_iff (s : State) : s.free < 1 ↔
    ¬ ∃ g : Geometry, s.journal.geometry = some g ∧ 1 ≤ g.slotCount - s.journal.occupied := by
  unfold State.free State.slotCount
  cases s.journal.geometry with
  | none => simp
  | some g => simp

theorem cutFailure_eq (s : State) : cutFailure s =
    if ¬ (s.epochs.engine = .journaling ∧ s.epochs.startClaimed = false) then some .wrongState
    else if ¬ s.epochs.ckptInFlight = false then some .ckptInFlight
    else if ¬ (s.maps.m0.state = .clean ∨ s.maps.m1.state = .clean) then some .sweepBusy
    else if ¬ ∃ g : Geometry, s.journal.geometry = some g ∧ 1 ≤ g.slotCount - s.journal.occupied then
      some .journalFull
    else if ¬ s.epochs.table.length < 16 then some .epochsFull
    else if ¬ s.epochs.lastUsed.toNat < 4294967295 then some .epochLimit
    else none := by
  have limit : s.epochs.lastUsed = Config.maxEpoch ↔ ¬ s.epochs.lastUsed.toNat < 4294967295 := by
    have := s.epochs.lastUsed.isLt
    rw [← BitVec.toNat_inj]
    show s.epochs.lastUsed.toNat = 4294967295 ↔ _
    omega
  have state : (s.epochs.engine ≠ .journaling ∨ s.epochs.startClaimed = true) ↔
      ¬ (s.epochs.engine = .journaling ∧ s.epochs.startClaimed = false) := by
    rw [not_and_or, Bool.not_eq_false]
  have clean : s.maps.find .clean = none ↔ ¬ (s.maps.m0.state = .clean ∨ s.maps.m1.state = .clean) := by
    rw [← find_ne_none, not_not]
  have capacity : Config.epochCapacity ≤ s.epochs.table.length ↔ ¬ s.epochs.table.length < 16 := by
    show 16 ≤ _ ↔ _
    omega
  simp only [cutFailure, state, clean, free_lt_one_iff, capacity, limit, Bool.not_eq_false]

theorem markReevaluated_of_failing {x : State} (h : cutFailure x ≠ none) : markReevaluated x = x :=
  if_neg fun hc => h hc.2.2

theorem markReevaluated_of_holding {x : State} (he : x.epochs.engine = .journaling) (hm : 0 < x.epochs.pendingMark)
    (h : cutFailure x = none) : markReevaluated x =
      if x.transit.access.isNone then claimTaken { x with transit.claims.cut := some .mark, epochs.ckptInFlight := true }
      else { x with transit.claims.cut := some .mark, epochs.ckptInFlight := true } := if_pos ⟨he, hm, h⟩

/-- The re-evaluation of a pending mark leaves the header writer and the access in progress. -/
theorem markReevaluated_leaves {x : State} (hs : settled x) :
    (markReevaluated x).journal.header = x.journal.header ∧ (markReevaluated x).transit.access = x.transit.access := by
  unfold markReevaluated
  split
  · rename_i h
    dsimp only
    split
    · rename_i ha
      have noClaim := hs (by simpa using ha)
      rw [claimTaken_of_cut_claimed noClaim h.1]
      unfold cut
      rw [allocate_eq, lowWater_eq]
      exact ⟨rfl, rfl⟩
    · exact ⟨rfl, rfl⟩
  · exact ⟨rfl, rfl⟩

/-- A command that re-evaluates the pending mark at its end. -/
theorem exec_of_markReevaluated {c : Instr} {s t : State} (h : live s) (hp : t.porn = s.porn)
    (ht : t.transit = s.transit) (he : t.epochs.engine = .journaling) (hm : 0 < t.epochs.pendingMark)
    (effect : exec c s = .next (arbitrate (markReevaluated t))) :
    (cutFailure t ≠ none → exec c s = .next (arbitrate t)) ∧
    (cutFailure t = none → s.transit.access.isSome → exec c s =
      .next (arbitrate { t with transit.claims.cut := some .mark, epochs.ckptInFlight := true })) ∧
    (cutFailure t = none → s.transit.access = none → exec c s =
      exec .cutTaken { t with transit.claims.cut := some .mark, epochs.ckptInFlight := true }) := by
  refine ⟨fun hf => ?_, fun hf ha => ?_, fun hf ha => ?_⟩
  · rw [effect, markReevaluated_of_failing hf]
  · rw [effect, markReevaluated_of_holding he hm hf, if_neg]
    rw [ht]
    simpa using Option.ne_none_iff_isSome.mpr ha
  · have claims : t.transit.claims = Claims.none := by rw [ht]; exact h.2 ha
    have alone := exec_cutTaken_alone (b := .mark)
      (s := { t with transit.claims.cut := some .mark, epochs.ckptInFlight := true })
      (hp.trans h.1) (by rw [ht]; exact ha)
      (by show Claims.mk t.transit.claims.commit _ t.transit.claims.start = _; rw [claims]; rfl)
    rw [effect, markReevaluated_of_holding he hm hf, if_pos (by rw [ht, ha]; rfl), alone]

theorem requestDone_checkpoint_marks {x : State} (hf : x.epochs.ckptInFlight = true) (e : Word) (c : Cause)
    (slot merged : Nat) : requestDone (.checkpoint e c slot merged) x =
      markReevaluated (post (.ckptDone e c slot merged) { x with epochs.ckptInFlight := false }) := if_pos hf

theorem requestDone_release_marks {x : State} {tag : Byte} {lost : Bool}
    (hl : x.link.slot = .executing 0x0B tag lost) : requestDone .release x = spaceRetested (markReevaluated { x with
      journal.occupied := x.journal.occupied - x.journal.held
      journal.held := 0
      link.slot := .ready tag .ok [] lost }) := by
  unfold requestDone
  dsimp only
  rw [hl]
  rfl

theorem markReevaluated_in_access {x : State} (he : x.epochs.engine = .journaling) (hm : 0 < x.epochs.pendingMark)
    (ha : x.transit.access.isNone = false) : markReevaluated x =
      if cutFailure x = none then { x with transit.claims.cut := some .mark, epochs.ckptInFlight := true } else x := by
  unfold markReevaluated
  dsimp only
  simp only [he, hm, ha, true_and, Bool.false_eq_true, if_false]

theorem nextCopyBegun_after_no_retest {v : State} (hd : v.journal.header.dirty = false) (hf : v.free < 2) :
    nextCopyBegun (spaceRetested v) = v := by
  rw [spaceRetested_of_not fun _ _ _ => hf, nextCopyBegun_of_clean hd]

theorem nextCopyBegun_after_retest {v : State} {a : Access} (ha : v.transit.access = some a)
    (hs : a.stage = .waitSpace) (hd : v.journal.header.dirty = false) (hf : 2 ≤ v.free) {tail : Nat} {sequence : Word}
    (ht : v.journal.tail = tail) (hq : v.journal.sequence = sequence) : nextCopyBegun (spaceRetested v) =
      { lowWater v.free (slotTaken v) with
        transit.timer := none
        transit.access := some { a with stage := .readOld, slot := some ⟨tail, sequence⟩, oldBursts := 0 } } := by
  rw [spaceRetested_of_stalled ha hs hf, nextCopyBegun_of_clean (by rw [lowWater_eq]; exact hd), ht, hq]

/-- Settles O35: the conditions by `cutFailure_eq`, the re-evaluations by `exec_of_markReevaluated`. -/
theorem cutConditions : Obligations.CutConditions := by
  unfold Obligations.CutConditions
  dsimp only
  refine ⟨fun s => ?_, fun s r hlive hr he hm => ?_, fun s addr data j h hj hb hk hd he hm =>
    ⟨fun e c slot merged hr hf => ?_, fun tag lost hr hl => ⟨fun hs => ?_, fun a ha hs => ?_⟩⟩⟩
  · rw [cutFailure_eq]
    refine ⟨fun h => if_pos h, fun h1 h => ?_, fun h1 h2 h => ?_, fun h1 h2 h3 h => ?_, fun h1 h2 h3 h4 h => ?_,
      fun h1 h2 h3 h4 h5 h => ?_, fun h1 h2 h3 h4 h5 h6 => ?_⟩
    · rw [if_neg (not_not.mpr h1), if_pos h]
    · rw [if_neg (not_not.mpr h1), if_neg (not_not.mpr h2), if_pos h]
    · rw [if_neg (not_not.mpr h1), if_neg (not_not.mpr h2), if_neg (not_not.mpr h3), if_pos h]
    · rw [if_neg (not_not.mpr h1), if_neg (not_not.mpr h2), if_neg (not_not.mpr h3), if_neg (not_not.mpr h4), if_pos h]
    · rw [if_neg (not_not.mpr h1), if_neg (not_not.mpr h2), if_neg (not_not.mpr h3), if_neg (not_not.mpr h4),
        if_neg (not_not.mpr h5), if_pos h]
    · rw [if_neg (not_not.mpr h1), if_neg (not_not.mpr h2), if_neg (not_not.mpr h3), if_neg (not_not.mpr h4),
        if_neg (not_not.mpr h5), if_neg (not_not.mpr h6)]
  · exact exec_of_markReevaluated hlive rfl rfl he hm
      (by rw [exec_sweepComplete hlive hr, sweepDone_of_journaling he])
  all_goals
    have done := exec_headerWriteDone_requested h hj hb hk
    rw [hr, List.foldl_cons, List.foldl_nil] at done
  · rw [requestDone_checkpoint_marks (by exact hf), nextCopyBegun_of_clean] at done
    · exact exec_of_markReevaluated h.1 (by rw [post_eq]; rfl) (by rw [post_eq]; rfl) (by rw [post_eq]; exact he)
        (by rw [post_eq]; exact hm) done
    · rw [(markReevaluated_leaves (by rw [post_eq]; exact h.1.2)).1, post_eq]
      exact hd
  · rw [requestDone_release_marks (by exact hl), spaceRetested_of_not_waiting, nextCopyBegun_of_clean] at done
    · exact exec_of_markReevaluated h.1 rfl rfl he hm done
    · rw [(markReevaluated_leaves (by exact h.1.2)).1]
      exact hd
    · rw [(markReevaluated_leaves (by exact h.1.2)).2]
      exact hs
  · have inAccess : s.transit.access.isNone = false := by rw [ha]; rfl
    rw [requestDone_release_marks (by exact hl), markReevaluated_in_access (by exact he) (by exact hm)
      (by exact inAccess)] at done
    rw [done]
    refine ⟨fun hf => congrArg _ (congrArg _ (nextCopyBegun_after_no_retest ?_ ?_)),
      fun hf => congrArg _ (congrArg _ (nextCopyBegun_after_retest (a := a) ?_ hs ?_ ?_ ?_ ?_))⟩
    · split <;> exact hd
    · split <;> exact hf
    · split <;> exact ha
    · split <;> exact hd
    · split <;> exact hf
    · split <;> rfl
    · split <;> rfl

end Sys2Proof.Machine
end

section
/-! Chapter 7: the walk, its halts and its write-backs, and ROLLBACK (R117 to R134). -/

namespace Sys2Proof.Machine

open Sys2Proof.Safety

/-! ## Halts and ABORT (R129, R130) -/

theorem halt_of_abort {s : State} {tag : Byte} {lost : Bool} (hl : s.link.slot = .executing 0x0D tag lost)
    (c : HaltCause) (slot : Nat) : halt c slot s =
      { post (.rollbackHalted c slot) { s with
          epochs.engine := .held
          epochs.walker := { Walker.powerOn with target := s.epochs.walker.target } } with
        link.slot := .ready tag .ok [] lost } := by
  have held : executing 0x0D (post (.rollbackHalted c slot)
      (s.setEpochs { s.epochs with engine := .held, walker := s.epochs.walker.stop })) = true := by
    rw [post_eq]
    simp [executing, hl]
  unfold halt
  dsimp only
  rw [if_pos held, answer_eq, post_eq, post_eq]
  simp only [answerLink, State.link_setEpochs, hl]
  rfl

theorem halt_of_no_abort {s : State} (hl : ∀ (tag : Byte) (lost : Bool), s.link.slot ≠ .executing 0x0D tag lost)
    (c : HaltCause) (slot : Nat) : halt c slot s = post (.rollbackHalted c slot) { s with
      epochs.engine := .held
      epochs.walker := { Walker.powerOn with target := s.epochs.walker.target } } := by
  refine if_neg ?_
  rw [post_eq]
  show ¬ executing 0x0D s = true
  unfold executing
  cases h : s.link.slot with
  | empty => simp
  | ready => simp
  | executing code tag lost =>
    intro same
    rw [eq_of_beq same] at h
    exact hl tag lost h

theorem forgetStart_eq (r : HeaderRequest) : r.forgetStart = if r = .start then .startAborted else r := by
  cases r <;> simp [HeaderRequest.forgetStart]

theorem exec_abort {f : Frame} {s : State} (h : frameExecutes 0x0D f s) : exec (.abort f) s = .next (arbitrate
    (if s.epochs.engine = .rollingBack then
      match s.epochs.walker.state with
      | .waitStart => halt .aborted (ringPrev s.slotCount s.journal.tail)
          (setHeader (forgetStarts s.journal.header) (holding 0x0D f s))
      | .read => setWalker { s.epochs.walker with abort := true } (holding 0x0D f s)
      | .writeBack => setWalker { s.epochs.walker with abort := true } (holding 0x0D f s)
      | .reopen => answer .wrongState [] (holding 0x0D f s)
      | .stopped => answer .wrongState [] (holding 0x0D f s)
    else answer .wrongState [] (holding 0x0D f s))) := by
  show execAbort f s = _
  unfold execAbort
  exact act_judgeFrame_of_executes _ h

/-- Settles O37: `halt` with and without an ABORT held, and ABORT by the walker's state. -/
theorem walkHalts : Obligations.WalkHalts := by
  unfold Obligations.WalkHalts
  dsimp only
  refine ⟨fun s c slot => ⟨fun tag lost hl => halt_of_abort hl c slot, fun hl => halt_of_no_abort hl c slot⟩,
    fun f s h => ⟨fun he hw => ?_, fun he hw => ?_, fun hn => ?_⟩, fun h => ?_⟩
  · rw [exec_abort h, if_pos he, hw]
    rfl
  · rcases hw with hw | hw <;> rw [exec_abort h, if_pos he, hw] <;> dsimp only <;> rw [← hw] <;> rfl
  · rw [exec_abort h]
    by_cases he : s.epochs.engine = .rollingBack
    · rw [if_pos he]
      rcases hn with hn | hn | hn
      · exact absurd he hn
      · rw [hn]
        rfl
      · rw [hn]
        rfl
    · rw [if_neg he]
      rfl
  · have forget : HeaderRequest.forgetStart = fun r => if r = .start then .startAborted else r :=
      funext forgetStart_eq
    rw [← forget]
    rfl

/-! ## The walk (R123 to R127, R134) -/

theorem exec_walkerSlotRead {s : State} {addr : Nat} (h : readsJ s .walker addr) (hw : s.epochs.walker.state = .read) :
    exec .walkerSlotRead s = .next (arbitrate
      (if (s.epochs.walker.buffer ++ s.jmem.readBytes addr 16).length < 96 then
        { jFree s with epochs.walker.buffer := s.epochs.walker.buffer ++ s.jmem.readBytes addr 16 }
      else walkSlot (s.epochs.walker.buffer ++ s.jmem.readBytes addr 16) (jFree s))) := by
  show execWalkerSlotRead s = _
  unfold execWalkerSlotRead
  rw [act_of_live h.1, jOwned_of_read h]
  dsimp only
  rw [if_pos ⟨rfl, hw⟩]
  rfl

theorem contains_iff (w : Window) (a : Nat) :
    w.contains a = true ↔ w.base ≤ a ∧ a < w.base + 2 ^ (20 + w.code) := by
  simp only [Window.contains, Bool.and_eq_true, decide_eq_true_eq]
  rfl

theorem walkVerified_iff {s : State} {g : Geometry} (hg : s.journal.geometry = some g) (e : Entry) (bs : List Byte) :
    walkVerified s e bs = true ↔ verdict (some g.identity) bs = .valid ∧
      (Record.decode bs).sequence = s.epochs.walker.sequence ∧
      (Record.decode bs).kind = (if s.epochs.walker.cursor = e.slot then 0x02 else 0x01) ∧
      (Record.decode bs).epoch = e.epoch ∧
      ((Record.decode bs).kind = 0x01 → g.window.base ≤ (Record.decode bs).granule ∧
        (Record.decode bs).granule < g.window.base + 2 ^ (20 + g.window.code)) := by
  unfold walkVerified
  simp only [hg, Bool.and_eq_true, decide_eq_true_eq, beq_iff_eq, Bool.or_eq_true, contains_iff, and_assoc,
    ← imp_iff_not_or, ne_eq]
  rfl

theorem walkSlot_of_entry {s : State} {e : Entry} (he : s.epochs.table[s.epochs.walker.expected]? = some e)
    (bs : List Byte) : walkSlot bs s =
      if walkVerified s e bs then
        if s.epochs.walker.cursor = e.slot then walkMarker e s
        else setWalker { s.epochs.walker with state := .writeBack, buffer := bs, bursts := 0 } s
      else halt .badRecord s.epochs.walker.cursor s := by
  unfold walkSlot
  dsimp only
  rw [he]

/-- The arrival as the state shows it (R71, R134). -/
theorem arriveTarget_eq {s : State} {g : Geometry} (hg : s.journal.geometry = some g) (e : Entry) : arriveTarget e s =
    (let n := s.epochs.lastUsed + 1
     let cleared : State := { s with
       journal.tail := e.slot
       journal.occupied := if s.journal.head ≤ e.slot then e.slot - s.journal.head
         else g.slotCount - s.journal.head + e.slot }
     { lowWater cleared.free (slotTaken cleared) with
       epochs.lastUsed := n
       epochs.table := (s.epochs.table.filter fun x => decide (x.epoch < s.epochs.walker.target)) ++
         [⟨n, e.slot, s.journal.sequence, 0, .reopen⟩]
       epochs.walker.state := .reopen
       journal.marker := .inFlight ⟨n, e.slot, .reopen, .reopen, 0,
         markerRecord g.identity s.journal.sequence n .reopen 0 s.epochs.walker.target, 0⟩ }) := by
  have identity : (s.journal.geometry.map (·.identity)).getD 0 = g.identity := by rw [hg]; rfl
  have count : s.slotCount = g.slotCount := by rw [State.slotCount, hg]
  dsimp only
  rw [← identity, ← count]
  unfold arriveTarget
  dsimp only
  rw [allocate_eq, lowWater_eq, lowWater_eq]
  rfl

theorem slotCount_of_geometry {s : State} {g : Geometry} (hg : s.journal.geometry = some g) :
    s.slotCount = g.slotCount := by
  rw [State.slotCount, hg]

theorem endStep_of_going {w : Walker} (h : w.abort = false) (s : State) :
    endStep w s = setWalker { w with state := .read, buffer := [], bursts := 0 } s := by
  rw [endStep, if_neg (by simp [h])]

theorem endStep_of_abort {w : Walker} (h : w.abort = true) (s : State) : endStep w s = halt .aborted w.cursor s := by
  rw [endStep, if_pos h]

theorem walkMarker_above {s : State} {e p : Entry} (ht : e.epoch ≠ s.epochs.walker.target)
    (hp : s.epochs.table[s.epochs.walker.expected - 1]? = some p) : walkMarker e s =
      endStep { s.epochs.walker with
        cursor := ringPrev s.slotCount s.epochs.walker.cursor
        sequence := p.sequence + BitVec.ofNat 32 p.undo
        expected := s.epochs.walker.expected - 1 } s := by
  unfold walkMarker
  dsimp only
  rw [if_neg ht, hp]

theorem walkMarker_target {s : State} {e : Entry} (ht : e.epoch = s.epochs.walker.target) : walkMarker e s =
    if s.epochs.walker.abort then halt .aborted e.slot s else arriveTarget e s := if_pos ht

/-- A verified MARKER has been read. -/
theorem exec_walkerSlotRead_marker {s : State} {addr : Nat} {e : Entry} (h : readsJ s .walker addr)
    (hw : s.epochs.walker.state = .read)
    (full : 96 ≤ (s.epochs.walker.buffer ++ s.jmem.readBytes addr 16).length)
    (he : s.epochs.table[s.epochs.walker.expected]? = some e) (hc : s.epochs.walker.cursor = e.slot)
    (hv : walkVerified s e (s.epochs.walker.buffer ++ s.jmem.readBytes addr 16) = true) :
    exec .walkerSlotRead s = .next (arbitrate (walkMarker e (jFree s))) := by
  rw [exec_walkerSlotRead h hw, if_neg (by omega), walkSlot_of_entry (by exact he), if_pos (by exact hv),
    if_pos (by exact hc)]

/-- Settles O38: the slot read by `walkSlot_of_entry`, the MARKER by `walkMarker`. -/
theorem walkerReads : Obligations.WalkerReads := by
  unfold Obligations.WalkerReads
  dsimp only
  refine ⟨fun s addr h hw => ⟨fun short => ?_, fun g e full hg he => ⟨fun passes hc => ?_, fun fails => ?_⟩⟩,
    fun s addr g e h hw full hg he hc hv hq hk hee => ?_⟩
  · rw [exec_walkerSlotRead h hw, if_pos short]
    rfl
  · rw [exec_walkerSlotRead h hw, if_neg (by omega), walkSlot_of_entry (by exact he),
      if_pos (by exact (walkVerified_iff hg e _).mpr passes), if_neg (by exact hc)]
    rfl
  · rw [exec_walkerSlotRead h hw, if_neg (by omega), walkSlot_of_entry (by exact he),
      if_neg (by exact fun hv => fails ((walkVerified_iff hg e _).mp hv))]
    rfl
  · have verified := (walkVerified_iff hg e (s.epochs.walker.buffer ++ s.jmem.readBytes addr 16)).mpr
      ⟨hv, hq, by rw [if_pos hc]; exact hk, hee, fun undo => absurd (hk.symm.trans undo) (by decide)⟩
    have marker := exec_walkerSlotRead_marker h hw full he hc verified
    refine ⟨fun p ht hp => ⟨fun ha => ?_, fun ha => ?_⟩, fun ht ha => ?_, fun ht ha => ?_⟩
    · rw [marker, walkMarker_above (by exact ht) (by exact hp), endStep_of_going (by exact ha),
        slotCount_of_geometry (by exact hg)]
      rfl
    · rw [marker, walkMarker_above (by exact ht) (by exact hp), endStep_of_abort (by exact ha),
        slotCount_of_geometry (by exact hg)]
      rfl
    · rw [marker, walkMarker_target (by exact ht), if_pos (by exact ha)]
    · rw [marker, walkMarker_target (by exact ht), if_neg (by exact ne_true_of_eq_false ha),
        arriveTarget_eq (by exact hg)]
      rfl

/-! ## Write-backs (R126) -/

theorem exec_writeBackDone {s : State} (h : live s) {addr : Nat} {data : List Byte}
    (hb : s.dport.burst = some (.walker addr data)) (hw : s.epochs.walker.state = .writeBack) :
    exec .writeBackDone s = .next (arbitrate
      (if s.epochs.walker.bursts + 1 = 4 then
        endStep { s.epochs.walker with
            cursor := ringPrev s.slotCount s.epochs.walker.cursor
            sequence := s.epochs.walker.sequence - 1 }
          { s with dmem := s.dmem.writeBytes addr data, dport.burst := none }
      else { s with
        dmem := s.dmem.writeBytes addr data
        dport.burst := none
        epochs.walker.bursts := s.epochs.walker.bursts + 1 })) := by
  show execWriteBackDone s = _
  unfold execWriteBackDone writeBackBurst
  rw [act_of_live h]
  simp only [hb]
  rw [if_pos hw]
  rfl

/-- Settles O39: the step's end by `endStep`, the grant by the walker waiting alone. -/
theorem writeBack : Obligations.WriteBack := by
  unfold Obligations.WriteBack
  dsimp only
  refine ⟨fun s addr data hlive => ⟨fun hb hw => ⟨fun more => ?_, fun last ha => ?_, fun last ha => ?_,
    fun beats => ?_⟩, fun h hw => ?_⟩, fun s hb hw ha => ?_⟩
  · rw [exec_writeBackDone hlive hb hw, if_neg more]
  · rw [exec_writeBackDone hlive hb hw, if_pos last, endStep_of_going (by exact ha)]
    rfl
  · rw [exec_writeBackDone hlive hb hw, if_pos last, endStep_of_abort (by exact ha)]
    rfl
  · show execWriteBackDerr beats s = _
    unfold execWriteBackDerr writeBackBurst
    rw [act_of_live hlive]
    simp only [hb]
    rw [if_pos hw]
    rfl
  · show execWalkerReadJerr s = _
    unfold execWalkerReadJerr
    rw [act_of_live hlive, jOwned_of_read h]
    dsimp only
    rw [if_pos ⟨rfl, hw⟩]
    rfl
  · have waits : dPick s = some .walker := by simp [dPick, transitWaits, walkerWaits, ha, hw]
    rw [grantD, hb, waits]
    rfl

/-! ## ROLLBACK (R117, R118) -/

theorem ofBe_be32 (x : Word) : ofBe (be32 x) = x.toNat := by
  have := x.isLt
  simp only [be32, beBytes, ofBe, List.foldl_cons, List.foldl_nil, BitVec.toNat_ofNat]
  omega

theorem wordBe_of_field {bs : List Byte} {off : Nat} {x : Word} (h : field bs off 4 = be32 x) : wordBe bs off = x := by
  rw [wordBe, fieldBe, h, ofBe_be32, BitVec.ofNat_toNat, BitVec.setWidth_eq]

theorem wordBe_be32 (x : Word) : wordBe (be32 x) 0 = x := wordBe_of_field rfl

theorem entryOf_isNone_iff (t : List Entry) (e : Word) :
    (entryOf t e).isNone = true ↔ ¬ ∃ x ∈ t, x.epoch = e := by
  simp [entryOf]

theorem longOperation_iff {e : Engine} (h1 : e ≠ .offline) (h2 : e ≠ .faulted) :
    e.longOperation = true ↔ ¬ (e = .journaling ∨ e = .held) := by
  cases e <;> simp_all [Engine.longOperation]

theorem exec_rollback {f : Frame} {s : State} {k : Word} (h : frameExecutes 0x0C f s) (hk : f.params = be32 k) :
    exec (.rollback f) s = .next (arbitrate (match rollbackRefusal k s with
      | some st => answered f st [] s
      | none => acceptRollback k (holding 0x0C f s))) := by
  show execRollback f s = _
  unfold execRollback
  rw [act_judgeFrame_of_executes _ h, hk, wordBe_be32]
  rfl

theorem maxEpoch_iff (x : Word) : x = Config.maxEpoch ↔ ¬ x.toNat < 4294967295 := by
  have := x.isLt
  rw [← BitVec.toNat_inj]
  show x.toNat = 4294967295 ↔ _
  omega

/-- The checks of R117, in order. -/
theorem rollbackRefusal_eq {k : Word} {s : State} (h1 : s.epochs.engine ≠ .offline) (h2 : s.epochs.engine ≠ .faulted) :
    rollbackRefusal k s =
      if ¬ ((s.epochs.engine = .journaling ∨ s.epochs.engine = .held) ∧ s.epochs.startClaimed = false) then some .busy
      else if ¬ s.epochs.ckptInFlight = false then some .ckptInFlight
      else if ¬ k ≠ 0 then some .badParam
      else if ¬ ∃ e ∈ s.epochs.table, e.epoch = k then some .notRetained
      else if ¬ s.epochs.latestBroken.toNat < k.toNat then some .unrestorable
      else if ¬ (s.epochs.engine = .held → k.toNat ≤ s.epochs.pendingTarget.toNat) then some .badParam
      else if ¬ s.epochs.lastUsed.toNat < 4294967295 then some .epochLimit
      else none := by
  have busy : (s.epochs.engine.longOperation = true ∨ s.epochs.startClaimed = true) ↔
      ¬ ((s.epochs.engine = .journaling ∨ s.epochs.engine = .held) ∧ s.epochs.startClaimed = false) := by
    rw [longOperation_iff h1 h2, not_and_or, Bool.not_eq_false]
  have above : (s.epochs.engine = .held ∧ s.epochs.pendingTarget.toNat < k.toNat) ↔
      ¬ (s.epochs.engine = .held → k.toNat ≤ s.epochs.pendingTarget.toNat) := by
    rw [Classical.not_imp, not_le]
  unfold rollbackRefusal
  rw [if_neg (by simp [h1, h2])]
  simp only [busy, above, entryOf_isNone_iff, maxEpoch_iff, BitVec.lt_def, Bool.not_eq_false, not_not, ne_eq]

theorem rollbackRefusal_of_stopped {k : Word} {s : State}
    (h : s.epochs.engine = .offline ∨ s.epochs.engine = .faulted) : rollbackRefusal k s = some .wrongState := if_pos h

/-- The state in which the start of a rollback has been claimed. -/
def rollbackClaimed (f : Frame) (k : Word) (s : State) : State :=
  answered f .accepted (be32 k ++ be32 (s.epochs.lastUsed + 1)) { s with
    epochs.pendingMark := 0
    epochs.startClaimed := true
    transit.claims.start := some k }

theorem acceptRollback_holding (f : Frame) (k : Word) (s : State) : acceptRollback k (holding 0x0C f s) =
    if s.transit.access.isNone then claimTaken (rollbackClaimed f k s) else endStall (rollbackClaimed f k s) := by
  unfold acceptRollback
  dsimp only
  rw [boundary_eq]
  rfl

theorem endStall_of_stalled {s : State} {a : Access} (ha : s.transit.access = some a) (hs : a.stage = .waitSpace) :
    endStall s = refuseAccess a .rollingBack s := by
  unfold endStall
  rw [ha]
  exact if_pos hs

theorem endStall_of_not {s : State} {a : Access} (ha : s.transit.access = some a) (hs : a.stage ≠ .waitSpace) :
    endStall s = s := by
  unfold endStall
  rw [ha]
  exact if_neg hs

/-- Settles O40: the checks by `rollbackRefusal_eq`, the claim by `acceptRollback_holding`. -/
theorem rollback : Obligations.Rollback := by
  unfold Obligations.Rollback
  dsimp only
  intro f s k h hk
  have effect := exec_rollback h hk
  have refused {st : Status} (hr : rollbackRefusal k s = some st) :
      exec (.rollback f) s = .next (arbitrate (answered f st [] s)) := by
    rw [effect, hr]
  have started (he : s.epochs.engine = .journaling ∨ s.epochs.engine = .held) :
      s.epochs.engine ≠ .offline ∧ s.epochs.engine ≠ .faulted := by
    rcases he with he | he <;> simp [he]
  refine ⟨fun he => refused (rollbackRefusal_of_stopped he), fun h1 h2 c1 => refused ?_, fun c1 c2 => refused ?_,
    fun c1 c2 c3 => refused ?_, fun c1 c2 c3 c4 => refused ?_, fun c1 c2 c3 c4 c5 => refused ?_,
    fun c1 c2 c3 c4 c5 c6 => refused ?_, fun c1 c2 c3 c4 c5 c6 c7 => refused ?_, fun c1 c2 c3 c4 c5 c6 c7 => ?_⟩
  · rw [rollbackRefusal_eq h1 h2, if_pos c1]
  all_goals
    have checks := rollbackRefusal_eq (k := k) (started c1.1).1 (started c1.1).2
    rw [if_neg (not_not.mpr c1)] at checks
  · rw [checks, if_pos c2]
  · rw [checks, if_neg (not_not.mpr c2), if_pos c3]
  · rw [checks, if_neg (not_not.mpr c2), if_neg (not_not.mpr c3), if_pos c4]
  · rw [checks, if_neg (not_not.mpr c2), if_neg (not_not.mpr c3), if_neg (not_not.mpr c4), if_pos c5]
  · rw [checks, if_neg (not_not.mpr c2), if_neg (not_not.mpr c3), if_neg (not_not.mpr c4), if_neg (not_not.mpr c5),
      if_pos c6]
  · rw [checks, if_neg (not_not.mpr c2), if_neg (not_not.mpr c3), if_neg (not_not.mpr c4), if_neg (not_not.mpr c5),
      if_neg (not_not.mpr c6), if_pos c7]
  · rw [if_neg (not_not.mpr c2), if_neg (not_not.mpr c3), if_neg (not_not.mpr c4), if_neg (not_not.mpr c5),
      if_neg (not_not.mpr c6), if_neg (not_not.mpr c7)] at checks
    rw [checks] at effect
    dsimp only at effect
    rw [acceptRollback_holding] at effect
    obtain ⟨⟨⟨hp, hsettled⟩, -⟩, -⟩ := id h
    refine ⟨fun ha => ?_, fun a ha => ⟨fun hs => ?_, fun hs => ?_, fun hs hc => ?_⟩⟩
    · have claims : (rollbackClaimed f k s).transit.claims = ⟨false, none, some k⟩ := by
        show Claims.mk s.transit.claims.commit s.transit.claims.cut _ = _
        rw [hsettled ha]
        rfl
      have alone := exec_rollbackStart_alone (s := rollbackClaimed f k s) hp ha claims
      rw [effect, if_pos (by rw [ha]; rfl)]
      exact alone.symm
    all_goals rw [if_neg (by rw [ha]; simp)] at effect
    · rw [effect, endStall_of_not (by exact ha) hs]
      rfl
    · rw [effect, endStall_of_stalled (by exact ha) hs, refuseAccess_eq]
      rfl
    · have claims : (post (.refusedAccess (4 * a.ua.toNat) a.write .rollingBack)
          (accessOver (s.transit.answers ++ [errBeat a.write]) (rollbackClaimed f k s))).transit.claims =
            ⟨false, none, some k⟩ := by
        rw [post_eq]
        show Claims.mk s.transit.claims.commit s.transit.claims.cut _ = _
        rw [hc]
        rfl
      have alone := exec_rollbackStart_alone (by rw [post_eq]; exact hp) (by rw [post_eq]; rfl) claims
      rw [effect, endStall_of_stalled (by exact ha) hs, refuseAccess_eq]
      exact alone.symm

end Sys2Proof.Machine
end

section
/-! Chapter 8: FORMAT and RECOVER (R139 to R153, R184). -/

namespace Sys2Proof.Machine

open Sys2Proof.Safety

/-! ## FORMAT (R139, R140) -/

theorem ofBe_beBytes {n : Nat} (h : n < 4294967296) : ofBe (beBytes 4 n) = n := by
  simp only [beBytes, ofBe, List.foldl_cons, List.foldl_nil, BitVec.toNat_ofNat]
  omega

theorem fieldBe_of_field {bs : List Byte} {off n : Nat} (hn : n < 4294967296) (h : field bs off 4 = beBytes 4 n) :
    fieldBe bs off 4 = n := by
  rw [fieldBe, h, ofBe_beBytes hn]

/-- FORMAT's parameters, encoded and read back (R185). -/
theorem formatParams_encoded (identity : Word) {count base : Nat} (code : Byte) (hc : count < 4294967296)
    (hb : base < 4294967296) : formatParams (be32 identity ++ beBytes 4 count ++ beBytes 4 base ++ [code]) =
      ⟨identity, count, ⟨base, code.toNat⟩⟩ := by
  rw [formatParams, wordBe_of_field (x := identity) rfl, fieldBe_of_field hc rfl, fieldBe_of_field hb rfl]
  rfl

theorem Window.aligned_iff_mod (w : Window) :
    w.aligned = true ↔ w.code ≤ 4 ∧ w.base % w.size = 0 ∧ w.base < 0x4000000 := by
  simp only [Window.aligned, Bool.and_eq_true, decide_eq_true_eq, and_assoc]

theorem Geometry.legal_iff (g : Geometry) : g.legal = true ↔ g.identity ≠ 0 ∧ 64 ≤ g.slotCount ∧
    g.slotCount ≤ 163840 ∧ g.window.code ≤ 4 ∧ g.window.base % 2 ^ (20 + g.window.code) = 0 ∧
    g.window.base < 0x4000000 := by
  simp only [Geometry.legal, Bool.and_eq_true, decide_eq_true_eq, bne_iff_ne, Window.aligned_iff_mod, and_assoc]
  rfl

theorem longOperation_eq_false_iff (e : Engine) :
    e.longOperation = false ↔ e ∈ [.offline, .journaling, .held, .faulted] := by
  cases e <;> decide

/-- The checks of R139, in order. -/
theorem formatRefusal_eq (g : Geometry) (s : State) : formatRefusal g s =
    if ¬ (s.epochs.engine ∈ [.offline, .journaling, .held, .faulted] ∧ s.epochs.startClaimed = false) then
      some (.busy, [])
    else if ¬ s.epochs.ckptInFlight = false then some (.ckptInFlight, [])
    else if ¬ g.legal = true then some (.badParam, [])
    else (firstOutside s.regions.active g.window).map fun i => (.badRegion, badRegionData i) := by
  have busy : (s.epochs.engine.longOperation = true ∨ s.epochs.startClaimed = true) ↔
      ¬ (s.epochs.engine ∈ [.offline, .journaling, .held, .faulted] ∧ s.epochs.startClaimed = false) := by
    rw [← longOperation_eq_false_iff, not_and_or, Bool.not_eq_false, Bool.not_eq_false]
  unfold formatRefusal
  simp only [busy, Bool.not_eq_false, Bool.not_eq_true', Bool.not_eq_true]
  cases firstOutside s.regions.active g.window <;> rfl

theorem badRegionData_eq (i : Nat) : badRegionData i = [BitVec.ofNat 8 i, 0x01] := by
  simp [badRegionData, beBytes]

theorem exec_format_of_refused {f : Frame} {s : State} (h : frameExecutes 0x08 f s) {st : Status} {data : List Byte}
    (hr : formatRefusal (formatParams f.params) s = some (st, data)) :
    exec (.format f) s = .next (arbitrate (answered f st data s)) := by
  show execFormat f s = _
  unfold execFormat
  rw [act_judgeFrame_of_executes _ h, show formatRefusal (formatParams f.params) (holding 0x08 f s) = _ from hr]
  rfl

theorem exec_format_of_accepted {f : Frame} {s : State} (h : frameExecutes 0x08 f s)
    (hr : formatRefusal (formatParams f.params) s = none) :
    exec (.format f) s = .next (arbitrate (acceptFormat (formatParams f.params) (holding 0x08 f s))) := by
  show execFormat f s = _
  unfold execFormat
  rw [act_judgeFrame_of_executes _ h, show formatRefusal (formatParams f.params) (holding 0x08 f s) = _ from hr]

theorem abandonHeader_eq (s : State) : abandonHeader s = { s with journal.header.inFlight :=
    (s.journal.header.inFlight.map fun j => { j with requests := [], kind := .abandoned }) } := by
  have same (x : Option HeaderJob) (h : s.journal.header.inFlight = x) :
      { s with journal.header.inFlight := x } = s := by rw [← h]
  unfold abandonHeader
  cases h : s.journal.header.inFlight with
  | none => exact (same none h).symm
  | some j => rfl

/-! ### Sweeps requested (R53) -/

theorem requestSweep_window (i : MapId) (m : CaptureMaps) : (requestSweep i m).window = m.window := by
  unfold requestSweep
  split
  · exact put_window _ _ _
  · split
    · exact put_window _ _ _
    · split <;> exact put_window _ _ _

theorem get_setState (m : CaptureMaps) (i j : MapId) (x : MapState) :
    (m.setState i x).get j = if j = i then { m.get i with state := x } else m.get j := by
  cases i <;> cases j <;> rfl

/-- With a window a requested sweep leaves its map SWEEPING, its bits as they are, and the other map alone. -/
theorem get_requestSweep {m : CaptureMaps} (hw : m.window ≠ none) (i j : MapId) :
    (requestSweep i m).get j = if j = i then { m.get i with state := .sweeping } else m.get j := by
  rw [← get_setState]
  unfold requestSweep
  simp only [hw, if_false]
  split
  · rfl
  · split <;> cases j <;> rfl

theorem get_installWindow (w : Window) (m : CaptureMaps) (j : MapId) :
    (installWindow w m).get j = { m.get j with state := .sweeping } := by
  have hw : ({ m with window := some w } : CaptureMaps).window ≠ none := nofun
  unfold installWindow
  rw [get_requestSweep (by rw [requestSweep_window]; exact hw), get_requestSweep hw, get_requestSweep hw]
  cases j <;> rfl

theorem installWindow_window (w : Window) (m : CaptureMaps) : (installWindow w m).window = some w := by
  unfold installWindow
  rw [requestSweep_window, requestSweep_window]

/-- Settles O41: the checks by `formatRefusal_eq`, the sweeps by `get_installWindow` and the queue they find. -/
theorem format : Obligations.Format := by
  unfold Obligations.Format
  dsimp only
  refine ⟨fun f s identity count base code h hc hb hp => ?_, fun w m => ?_⟩
  · have params := formatParams_encoded identity code hc hb
    have checks := formatRefusal_eq ⟨identity, count, ⟨base, code.toNat⟩⟩ s
    have legal := Geometry.legal_iff ⟨identity, count, ⟨base, code.toNat⟩⟩
    have refused {st : Status} {data : List Byte}
        (hr : formatRefusal ⟨identity, count, ⟨base, code.toNat⟩⟩ s = some (st, data)) :
        exec (.format f) s = .next (arbitrate (answered f st data s)) :=
      exec_format_of_refused h (by rw [hp, params]; exact hr)
    refine ⟨fun c1 => refused ?_, fun c1 c2 => refused ?_, fun c1 c2 c3 => refused ?_, fun i c1 c2 c3 c4 => refused ?_,
      fun c1 c2 c3 c4 => ?_⟩
    · rw [checks, if_pos c1]
    · rw [checks, if_neg (not_not.mpr c1), if_pos c2]
    · rw [checks, if_neg (not_not.mpr c1), if_neg (not_not.mpr c2), if_pos fun hl => c3 (legal.mp hl)]
    · rw [checks, if_neg (not_not.mpr c1), if_neg (not_not.mpr c2), if_neg (not_not.mpr (legal.mpr c3)), c4, ← badRegionData_eq]
      rfl
    · rw [if_neg (not_not.mpr c1), if_neg (not_not.mpr c2), if_neg (not_not.mpr (legal.mpr c3)), c4] at checks
      rw [exec_format_of_accepted h (by rw [hp, params]; exact checks), hp, params]
      unfold acceptFormat
      dsimp only
      rw [abandonHeader_eq, disownJ_eq]
      rfl
  · have m0 := get_installWindow w m .m0
    have m1 := get_installWindow w m .m1
    refine ⟨installWindow_window w m, (congrArg CaptureMap.bits m0).trans rfl, (congrArg CaptureMap.bits m1).trans rfl,
      congrArg CaptureMap.state m0, congrArg CaptureMap.state m1, fun hr hq => ?_, fun r hr hq => ?_,
      fun r q hr hq hne => ?_⟩
    · obtain ⟨a, b, window, running, queued⟩ := m
      cases hr
      cases hq
      exact ⟨rfl, rfl⟩
    · obtain ⟨a, b, window, running, queued⟩ := m
      obtain ⟨i, n⟩ := r
      cases hr
      cases hq
      cases i <;> exact ⟨rfl, rfl⟩
    · obtain ⟨a, b, window, running, queued⟩ := m
      obtain ⟨i, n⟩ := r
      cases hr
      cases hq
      obtain ⟨rfl, rfl⟩ | ⟨rfl, rfl⟩ := ne_mapId hne <;> exact ⟨rfl, rfl⟩

/-! ## RECOVER (R144, R153) -/

theorem exec_recover {f : Frame} {s : State} (h : frameExecutes 0x09 f s) : exec (.recover f) s =
    .next (arbitrate (match s.epochs.engine with
      | .offline => acceptRecover (holding 0x09 f s)
      | .formatting => answer .busy [] (holding 0x09 f s)
      | .recovering => answer .busy [] (holding 0x09 f s)
      | .rollingBack => answer .busy [] (holding 0x09 f s)
      | .settling => answer .busy [] (holding 0x09 f s)
      | .journaling => answer .wrongState [] (holding 0x09 f s)
      | .held => answer .wrongState [] (holding 0x09 f s)
      | .faulted => answer .wrongState [] (holding 0x09 f s))) := by
  show execRecover f s = _
  unfold execRecover
  exact act_judgeFrame_of_executes _ h

/-- Settles O42: by the engine state, and by the stage a failure finds. -/
theorem recover : Obligations.Recover := by
  unfold Obligations.Recover
  dsimp only
  refine ⟨fun f s h => ⟨fun he => ?_, fun he => ?_, fun he => ?_⟩, fun o s => ⟨fun buf hr => ?_, fun h sc buf hr => ?_,
    fun h sc ld buf hr => ?_⟩⟩
  · simp only [List.mem_cons, List.not_mem_nil, or_false] at he
    rcases he with he | he | he | he <;> rw [exec_recover h, he] <;> rfl
  · simp only [List.mem_cons, List.not_mem_nil, or_false] at he
    rcases he with he | he | he <;> rw [exec_recover h, he] <;> rfl
  · rw [exec_recover h, he]
    rfl
  · unfold recoverFail
    rw [hr]
    rfl
  · unfold recoverFail
    rw [hr]
    rfl
  · unfold recoverFail
    rcases hr with hr | hr <;> rw [hr] <;> rfl

/-! ## The header copies (R145 to R147, R184) -/

theorem exec_headerCopiesRead {s : State} {addr : Nat} {buf : List Byte} (h : readsJ s .recovery addr)
    (hr : s.epochs.recovery = .copies buf) : exec .headerCopiesRead s = .next (arbitrate
      (if (buf ++ s.jmem.readBytes addr 16).length < 256 then
        { jFree s with epochs.recovery := .copies (buf ++ s.jmem.readBytes addr 16) }
      else copiesRead (buf ++ s.jmem.readBytes addr 16) (jFree s))) := by
  show execHeaderCopiesRead s = _
  unfold execHeaderCopiesRead
  rw [act_of_live h.1, jOwned_of_read h]
  simp only [hr]
  rfl

theorem Header.legal_iff (h : Header) : h.legal = true ↔ 64 ≤ h.slotCount ∧ h.slotCount ≤ 163840 ∧ h.sizeCode ≤ 4 ∧
    h.windowBase % h.window.size = 0 ∧ h.windowBase < 0x4000000 ∧ h.headSlot < h.slotCount := by
  simp only [Header.legal, Bool.and_eq_true, decide_eq_true_eq, Window.aligned_iff_mod, and_assoc]
  rfl

theorem Header.sameJournal_iff (x y : Header) : x.sameJournal y = true ↔ x.identity = y.identity ∧
    x.slotCount = y.slotCount ∧ x.windowBase = y.windowBase ∧ x.sizeCode = y.sizeCode := by
  simp [Header.sameJournal, Header.window, and_assoc]

/-- The choice between two valid copies. -/
theorem chooseCopy_of_valid {a b : List Byte} (ha : headerValid a = true) (hb : headerValid b = true) :
    chooseCopy a b =
      if (Header.decode a).sameJournal (Header.decode b) ∧
          (Header.decode b).generation = (Header.decode a).generation + 1 then
        some (.b, Header.decode b)
      else some (.a, Header.decode a) := by
  unfold chooseCopy
  rw [ha, hb]

theorem copiesRead_of_chosen {bs : List Byte} {c : Copy} {h : Header}
    (hc : chooseCopy (bs.take 128) (bs.drop 128) = some (c, h)) (s : State) : copiesRead bs s =
      (let t : State := { s with journal.header.generation := h.generation, journal.header.last := some c }
       if ¬ h.legal = true then recoverFail .badJournal t
       else if (firstOutside s.regions.active h.window).isSome then recoverFail .windowConflict t
       else { t with
         journal.geometry := some ⟨h.identity, h.slotCount, h.window⟩
         maps := installWindow h.window s.maps
         epochs.recovery := .sweep h }) := by
  unfold copiesRead
  rw [hc]
  simp only [Bool.not_eq_true', Bool.not_eq_true]
  rfl

/-- Settles O43: the reads by `exec_headerCopiesRead`, the choice by `chooseCopy_of_valid`. -/
theorem headerCopiesRead : Obligations.HeaderCopiesRead := by
  unfold Obligations.HeaderCopiesRead
  dsimp only
  refine ⟨fun s addr buf h hr => ⟨fun short => ?_, fun full => ⟨fun none => ?_, fun c header chosen =>
    ⟨fun illegal => ?_, fun legal outside => ?_, fun legal inside => ?_⟩⟩⟩, fun a b => ⟨fun ha hb => ?_,
    fun ha hb => ?_, fun ha hb => ?_, fun ha hb => ⟨fun same gen => ?_, fun same gen => ?_, fun differ => ?_⟩⟩⟩
  · rw [exec_headerCopiesRead h hr, if_pos short]
  · rw [exec_headerCopiesRead h hr, if_neg (by omega), copiesRead, none]
  · rw [exec_headerCopiesRead h hr, if_neg (by omega), copiesRead_of_chosen chosen]
    dsimp only
    rw [if_pos (by rw [Header.legal_iff]; exact illegal)]
  · rw [exec_headerCopiesRead h hr, if_neg (by omega), copiesRead_of_chosen chosen]
    dsimp only
    rw [if_neg (not_not.mpr ((Header.legal_iff _).mpr legal)), if_pos (by exact outside)]
  · rw [exec_headerCopiesRead h hr, if_neg (by omega), copiesRead_of_chosen chosen]
    dsimp only
    rw [if_neg (not_not.mpr ((Header.legal_iff _).mpr legal)),
      if_neg (by rw [show firstOutside (jFree s).regions.active header.window = _ from inside]; nofun)]
    rfl
  · simp [chooseCopy, ha, hb]
  · simp [chooseCopy, ha, hb]
  · simp [chooseCopy, ha, hb]
  · rw [chooseCopy_of_valid ha hb, if_pos ⟨(Header.sameJournal_iff _ _).mpr same, gen⟩]
  · rw [chooseCopy_of_valid ha hb, if_neg]
    rintro ⟨-, back⟩
    bv_omega
  · rw [chooseCopy_of_valid ha hb, if_neg]
    rintro ⟨same, gen⟩
    exact differ ⟨(Header.sameJournal_iff _ _).mp same, gen⟩

/-! ## The scan (R148 to R151) -/

theorem exec_scanSlotRead {s : State} {addr : Nat} {h : Header} {sc : Scan} {buf : List Byte}
    (hb : readsJ s .recovery addr) (hr : s.epochs.recovery = .scan h sc buf) : exec .scanSlotRead s = .next (arbitrate
      (if (buf ++ s.jmem.readBytes addr 16).length < 96 then
        { jFree s with epochs.recovery := .scan h sc (buf ++ s.jmem.readBytes addr 16) }
      else scanSlot h sc (buf ++ s.jmem.readBytes addr 16) (jFree s))) := by
  show execScanSlotRead s = _
  unfold execScanSlotRead
  rw [act_of_live hb.1, jOwned_of_read hb]
  simp only [hr]
  rfl

theorem headAccepted_iff (identity : Word) (h : Header) (bs : List Byte) : headAccepted identity h bs = true ↔
    verdict (some identity) bs = .valid ∧ (Record.decode bs).kind = 0x02 ∧
      (((Record.decode bs).epoch = h.headEpoch ∧ (Record.decode bs).sequence = h.headSequence) ∨
        (h.pendingTarget ≠ 0 ∧ h.pendingTarget = h.headEpoch ∧
          Cause.ofCode (Record.decode bs).cause = some .reopen ∧ (Record.decode bs).reopenedFrom = h.pendingTarget ∧
          h.pendingTarget.toNat < (Record.decode bs).epoch.toNat ∧
          1 ≤ ((Record.decode bs).sequence - h.headSequence).toNat ∧
          ((Record.decode bs).sequence - h.headSequence).toNat ≤ 2147483647)) := by
  unfold headAccepted
  simp only [Bool.and_eq_true, Bool.or_eq_true, decide_eq_true_eq, beq_iff_eq, bne_iff_ne, and_assoc, BitVec.lt_def]
  rfl

/-- The distance between two sequence numbers is one. -/
theorem seqAhead_eq_one_iff (x y : Word) : seqAhead x y = 1 ↔ y = x + 1 := by
  unfold seqAhead
  constructor
  · intro h
    bv_omega
  · rintro rfl
    bv_omega

theorem nextAccepted_undo_iff (identity : Word) (w : Window) (sc : Scan) {bs : List Byte}
    (hk : (Record.decode bs).kind = 0x01) : nextAccepted identity w sc bs = true ↔
      verdict (some identity) bs = .valid ∧ (Record.decode bs).sequence = sc.sequence + 1 ∧
        (Record.decode bs).epoch = sc.epoch ∧ w.base ≤ (Record.decode bs).granule ∧
        (Record.decode bs).granule < w.base + 2 ^ (20 + w.code) := by
  have kind : (Record.decode bs).kind = kindUndo := hk
  unfold nextAccepted
  dsimp only
  rw [if_pos kind]
  simp only [Bool.and_eq_true, decide_eq_true_eq, beq_iff_eq, and_assoc, contains_iff, seqAhead_eq_one_iff]

theorem nextAccepted_marker_iff (identity : Word) (w : Window) (sc : Scan) {bs : List Byte} {c : Cause}
    (hk : (Record.decode bs).kind = 0x02) (hc : Cause.ofCode (Record.decode bs).cause = some c) :
    nextAccepted identity w sc bs = true ↔ verdict (some identity) bs = .valid ∧
      sc.epoch.toNat < (Record.decode bs).epoch.toNat ∧ c ≠ .format ∧
      (c ≠ .reopen → seqAhead sc.sequence (Record.decode bs).sequence = 1) ∧
      (c = .reopen → 2 ≤ seqAhead sc.sequence (Record.decode bs).sequence ∧
        seqAhead sc.sequence (Record.decode bs).sequence ≤ 2147483647 ∧
        sc.epoch.toNat < (Record.decode bs).reopenedFrom.toNat ∧
        (Record.decode bs).reopenedFrom.toNat < (Record.decode bs).epoch.toNat) := by
  have kind : (Record.decode bs).kind ≠ kindUndo := by rw [hk]; decide
  unfold nextAccepted
  dsimp only
  rw [if_neg kind, hc]
  cases c <;>
    simp only [Bool.and_eq_true, decide_eq_true_eq, and_assoc, BitVec.lt_def, ne_eq, reduceCtorEq,
      not_false_eq_true, not_true_eq_false, Bool.false_eq_true, forall_const, false_imp_iff, and_true, true_and,
      false_and, and_false]

theorem acceptRecord_undo {n : Nat} {p : Word} {sc : Scan} {bs : List Byte} (hk : (Record.decode bs).kind = 0x01)
    {l : List Entry} {e : Entry} (he : sc.entries = l ++ [e]) : acceptRecord n p sc bs =
      ⟨l ++ [{ e with undo := e.undo + 1 }], sc.records + 1, if sc.slot + 1 < n then sc.slot + 1 else 0,
        (Record.decode bs).epoch, (Record.decode bs).sequence, sc.reopened⟩ := by
  have kind : decide ((Record.decode bs).kind = kindMarker) = false := by rw [hk]; decide
  unfold acceptRecord
  dsimp only
  rw [kind, he, raiseLast_append]
  simp [ringNext]

theorem acceptRecord_marker {n : Nat} {p : Word} {sc : Scan} {bs : List Byte} {c : Cause}
    (hk : (Record.decode bs).kind = 0x02) (hc : Cause.ofCode (Record.decode bs).cause = some c) :
    acceptRecord n p sc bs =
      ⟨sc.entries ++ [⟨(Record.decode bs).epoch, sc.slot, (Record.decode bs).sequence, 0, c⟩], sc.records + 1,
        if sc.slot + 1 < n then sc.slot + 1 else 0, (Record.decode bs).epoch, (Record.decode bs).sequence,
        sc.reopened || decide (c = .reopen ∧ p ≠ 0 ∧ (Record.decode bs).reopenedFrom = p)⟩ := by
  have kind : decide ((Record.decode bs).kind = kindMarker) = true := by rw [hk]; decide
  unfold acceptRecord
  dsimp only
  rw [kind, hc]
  have settles : (true && decide (c = .reopen) && p != 0 && (Record.decode bs).reopenedFrom == p) =
      decide (c = .reopen ∧ p ≠ 0 ∧ (Record.decode bs).reopenedFrom = p) := by
    rw [Bool.eq_iff_iff]
    simp [and_assoc]
  rw [Option.getD_some, settles]
  rfl

theorem scanSlot_of_head_refused {h : Header} {sc : Scan} {bs : List Byte} (h0 : sc.records = 0)
    (hn : headAccepted h.identity h bs = false) (s : State) :
    scanSlot h sc bs s = recoverFail .badJournal s := by
  unfold scanSlot
  dsimp only
  rw [if_pos h0, hn, if_neg (by simp), if_pos h0]

theorem scanSlot_of_next_refused {h : Header} {sc : Scan} {bs : List Byte} (h0 : sc.records ≠ 0)
    (hn : nextAccepted h.identity h.window sc bs = false) (s : State) : scanSlot h sc bs s = rebuild h sc s := by
  unfold scanSlot
  dsimp only
  rw [if_neg h0, hn, if_neg (by simp), if_neg h0]

/-- The scan has accepted a record and stands at `sc` (R148, R151). -/
def scanExtended (h : Header) (sc : Scan) (s : State) : State :=
  if 16 < sc.entries.length then recoverFail .badJournal { s with epochs.recovery := .scan h sc [] }
  else if sc.records = h.slotCount then rebuild h sc { s with epochs.recovery := .scan h sc [] }
  else { s with epochs.recovery := .scan h sc [] }

theorem scanSlot_of_accepted {h : Header} {sc : Scan} {bs : List Byte}
    (ok : sc.records = 0 ∧ headAccepted h.identity h bs = true ∨
      sc.records ≠ 0 ∧ nextAccepted h.identity h.window sc bs = true) {on : Scan}
    (ext : acceptRecord h.slotCount h.pendingTarget sc bs = on) (s : State) :
    scanSlot h sc bs s = scanExtended h on s := by
  subst ext
  unfold scanSlot
  dsimp only
  rw [if_pos]
  · rfl
  · rcases ok with ⟨h0, ok⟩ | ⟨h0, ok⟩
    · rw [if_pos h0, ok]
    · rw [if_neg h0, ok]

theorem scanExtended_of_going {h : Header} {sc : Scan} (room : sc.entries.length ≤ 16)
    (more : sc.records ≠ h.slotCount) (s : State) :
    scanExtended h sc s = { s with epochs.recovery := .scan h sc [] } := by
  rw [scanExtended, if_neg (by omega), if_neg more]

theorem scanExtended_of_last {h : Header} {sc : Scan} (room : sc.entries.length ≤ 16)
    (last : sc.records = h.slotCount) (s : State) :
    scanExtended h sc s = rebuild h sc { s with epochs.recovery := .scan h sc [] } := by
  rw [scanExtended, if_neg (by omega), if_pos last]

theorem scanExtended_of_full {h : Header} {sc : Scan} (full : 16 < sc.entries.length) (s : State) :
    scanExtended h sc s = recoverFail .badJournal { s with epochs.recovery := .scan h sc [] } := if_pos full

/-- Settles O44: `scanSlot` at head and after it, the tests by `headAccepted_iff` and its companions. -/
theorem scanReads : Obligations.ScanReads := by
  unfold Obligations.ScanReads
  dsimp only
  refine ⟨fun s addr h sc buf hb hr => ⟨fun short => ?_, fun full => ?_⟩, fun identity bs hv hk hc =>
    ⟨fun h hn => ?_, fun h he => ?_, fun w sc => ?_⟩⟩
  · rw [exec_scanSlotRead hb hr, if_pos short]
  · have effect : exec .scanSlotRead s = .next (arbitrate (scanSlot h sc
        (buf ++ s.jmem.readBytes addr 16) (jFree s))) := by
      rw [exec_scanSlotRead hb hr, if_neg (by omega)]
    generalize buf ++ s.jmem.readBytes addr 16 = bs at effect
    rw [effect]
    have accepted {on : Scan} (ok : sc.records = 0 ∧ headAccepted h.identity h bs = true ∨
          sc.records ≠ 0 ∧ nextAccepted h.identity h.window sc bs = true)
        (ext : acceptRecord h.slotCount h.pendingTarget sc bs = on) := scanSlot_of_accepted ok ext (jFree s)
    refine ⟨fun h0 hn => ?_, fun c h0 hnil hre h1 hv hk hc hne => ⟨fun he hq => ?_, fun hn => ?_⟩,
      fun h0 hnil hre h1 hv hk hc => ⟨fun ok => ?_, fun hn => ?_⟩,
      fun l e h0 hl room hv hk => ⟨fun hq he hg1 hg2 more => ?_, fun hq he hg1 hg2 last => ?_, fun hn => ?_⟩,
      fun c h0 hv hk hc => ⟨fun hn => ?_, fun ok room more => ?_, fun ok room last => ?_, fun ok room => ?_⟩,
      fun h0 hn => ?_⟩
    · rw [scanSlot_of_head_refused h0]
      rw [Bool.eq_false_iff]
      exact fun ok => hn ⟨((headAccepted_iff _ _ _).mp ok).1, ((headAccepted_iff _ _ _).mp ok).2.1⟩
    · rw [accepted (.inl ⟨h0, (headAccepted_iff _ _ _).mpr ⟨hv, hk, .inl ⟨he, hq⟩⟩⟩) (acceptRecord_marker hk hc),
        scanExtended_of_going (by simp [hnil]) (by simp [h0]; omega)]
      simp [hre, hne]
    · rw [scanSlot_of_head_refused h0]
      rw [Bool.eq_false_iff]
      intro ok
      obtain ⟨-, -, ⟨he, hq⟩ | ⟨-, -, hr', -⟩⟩ := (headAccepted_iff _ _ _).mp ok
      · exact hn.elim (· he) (· hq)
      · exact hne (Option.some.inj (hc.symm.trans hr'))
    · rw [accepted (.inl ⟨h0, ok⟩) (acceptRecord_marker hk hc),
        scanExtended_of_going (by simp [hnil]) (by simp [h0]; omega)]
      simp [hre]
    · rw [scanSlot_of_head_refused h0 hn]
    · rw [accepted (.inr ⟨h0, (nextAccepted_undo_iff _ _ _ hk).mpr ⟨hv, hq, he, hg1, hg2⟩⟩) (acceptRecord_undo hk hl),
        scanExtended_of_going (by simpa [hl] using room) more]
    · rw [accepted (.inr ⟨h0, (nextAccepted_undo_iff _ _ _ hk).mpr ⟨hv, hq, he, hg1, hg2⟩⟩) (acceptRecord_undo hk hl),
        scanExtended_of_last (by simpa [hl] using room) last]
    · rw [scanSlot_of_next_refused h0]
      rw [Bool.eq_false_iff]
      intro ok
      obtain ⟨-, hq, he, hg1, hg2⟩ := (nextAccepted_undo_iff _ _ _ hk).mp ok
      rcases hn with hn | hn | hn | hn
      · exact hn hq
      · exact hn he
      · exact absurd hg1 (not_le.mpr hn)
      · exact absurd hg2 (not_lt.mpr hn)
    · rw [scanSlot_of_next_refused h0]
      rw [Bool.eq_false_iff]
      exact fun ok => hn ((nextAccepted_marker_iff _ _ _ hk hc).mp ok).2
    · rw [accepted (.inr ⟨h0, (nextAccepted_marker_iff _ _ _ hk hc).mpr ⟨hv, ok⟩⟩) (acceptRecord_marker hk hc),
        scanExtended_of_going (by simp; omega) more]
    · rw [accepted (.inr ⟨h0, (nextAccepted_marker_iff _ _ _ hk hc).mpr ⟨hv, ok⟩⟩) (acceptRecord_marker hk hc),
        scanExtended_of_last (by simp; omega) last]
    · rw [accepted (.inr ⟨h0, (nextAccepted_marker_iff _ _ _ hk hc).mpr ⟨hv, ok⟩⟩) (acceptRecord_marker hk hc),
        scanExtended_of_full (by simp; omega)]
    · rw [scanSlot_of_next_refused h0]
      rw [Bool.eq_false_iff]
      intro ok
      unfold nextAccepted at ok
      simp [hn] at ok
  · rw [headAccepted_iff]
    simp [hv, hc, hn, show (Record.decode bs).kind = 0x02 from hk]
  · rw [headAccepted_iff]
    refine ⟨?_, fun hq => ⟨hv, hk, .inl ⟨he, hq⟩⟩⟩
    rintro ⟨-, -, ⟨-, hq⟩ | ⟨-, hp, -, -, above, -⟩⟩
    · exact hq
    · rw [he, ← hp] at above
      omega
  · rw [nextAccepted_marker_iff _ _ _ hk hc]
    simp only [hv, true_and, ne_eq, reduceCtorEq, not_false_eq_true, not_true_eq_false, false_imp_iff, forall_const]
    rfl

/-! ## The rebuild, the settlement and the map load (R57, R151, R152) -/

theorem settleTarget_none {h : Header} (hp : h.pendingTarget = 0) (sc : Scan) (s : State) : settleTarget h sc s =
    post (.recoverDone .restored sc.entries.length sc.records)
      { s with epochs.engine := .journaling, epochs.recovery := .idle } := by
  unfold settleTarget
  dsimp only
  rw [if_pos hp]
  rfl

theorem settleTarget_reopened {h : Header} {sc : Scan} (hp : h.pendingTarget ≠ 0) (hr : sc.reopened = true)
    (s : State) : settleTarget h sc s =
      requestHeader .recover { s with epochs.recovery := .header h sc, epochs.pendingTarget := 0 } := by
  unfold settleTarget
  dsimp only
  rw [if_neg hp, if_pos hr]
  rfl

theorem settleTarget_held {h : Header} {sc : Scan} (hp : h.pendingTarget ≠ 0) (hr : sc.reopened = false)
    (s : State) : settleTarget h sc s = post (.recoverDone .restoredHeld sc.entries.length sc.records)
      { s with epochs.engine := .held, epochs.recovery := .idle, epochs.pendingTarget := h.pendingTarget } := by
  unfold settleTarget
  dsimp only
  rw [if_neg hp, if_neg (by simp [hr])]
  rfl

theorem reloadAccepted_iff (identity : Word) (w : Window) (sequence : Word) (bs : List Byte) :
    reloadAccepted identity w sequence bs = true ↔ verdict (some identity) bs = .valid ∧
      (Record.decode bs).sequence = sequence ∧ ((Record.decode bs).kind = 0x01 →
        w.base ≤ (Record.decode bs).granule ∧ (Record.decode bs).granule < w.base + 2 ^ (20 + w.code)) := by
  unfold reloadAccepted
  simp only [Bool.and_eq_true, Bool.or_eq_true, decide_eq_true_eq, beq_iff_eq, and_assoc, contains_iff,
    ← imp_iff_not_or, ne_eq]
  rfl

theorem exec_mapLoadRead {s : State} {addr : Nat} {h : Header} {sc : Scan} {ld : MapLoad} {buf : List Byte}
    (hb : readsJ s .recovery addr) (hr : s.epochs.recovery = .load h sc ld buf) : exec .mapLoadRead s = .next (arbitrate
      (if (buf ++ s.jmem.readBytes addr 16).length < 96 then
        { jFree s with epochs.recovery := .load h sc ld (buf ++ s.jmem.readBytes addr 16) }
      else loadSlot h sc ld (buf ++ s.jmem.readBytes addr 16) (jFree s))) := by
  show execMapLoadRead s = _
  unfold execMapLoadRead
  rw [act_of_live hb.1, jOwned_of_read hb]
  simp only [hr]
  rfl

/-- The maps once a record has been read again (R57). -/
theorem loadSlot_of_accepted {h : Header} {sc : Scan} {ld : MapLoad} {bs : List Byte}
    (ok : reloadAccepted h.identity h.window ld.sequence bs = true) (s : State) : loadSlot h sc ld bs s =
      (let maps := if (Record.decode bs).kind = kindUndo then setBit s.maps (Record.decode bs).granule else s.maps
       let t : State := { s with maps := maps }
       let next : MapLoad := ⟨ringNext h.slotCount ld.slot, ld.left - 1, ld.sequence + 1⟩
       if ld.left ≤ 1 then settleTarget h sc t else { t with epochs.recovery := .load h sc next [] }) := by
  unfold loadSlot
  dsimp only
  rw [if_pos ok]
  by_cases hk : (Record.decode bs).kind = kindUndo
  · rw [if_pos hk, if_pos hk]
    rfl
  · rw [if_neg hk, if_neg hk]
    rfl

theorem loadSlot_of_refused {h : Header} {sc : Scan} {ld : MapLoad} {bs : List Byte}
    (hn : ¬ reloadAccepted h.identity h.window ld.sequence bs = true) (s : State) :
    loadSlot h sc ld bs s = recoverFail .badJournal s := if_neg hn

/-- Settles O45: the rebuild by its last entry, the settlement by the pending target, the map load record by record. -/
theorem journalRebuilt : Obligations.JournalRebuilt := by
  unfold Obligations.JournalRebuilt
  dsimp only
  refine ⟨fun h sc l e s hl => ⟨fun hu => ?_, fun hu => ?_⟩, fun h sc s => ⟨fun hp => settleTarget_none hp sc s,
    fun hp hr => settleTarget_reopened hp hr s, fun hp hr => settleTarget_held hp hr s⟩,
    fun s addr hb => ⟨fun h sc ld buf hr => ⟨fun short => ?_, fun full => ⟨fun ok more => ?_, fun ok last => ?_,
      fun hn => ?_⟩⟩, fun he => ?_⟩⟩
  · have last : sc.entries.getLast? = some e := by simp [hl]
    unfold rebuild
    dsimp only
    rw [last, Option.getD_some, if_pos hu]
    rfl
  · have last : sc.entries.getLast? = some e := by simp [hl]
    unfold rebuild
    dsimp only
    rw [last, Option.getD_some, if_neg hu]
    rfl
  · rw [exec_mapLoadRead hb hr, if_pos short]
  · rw [exec_mapLoadRead hb hr, if_neg (by omega), loadSlot_of_accepted (by exact (reloadAccepted_iff _ _ _ _).mpr ok)]
    dsimp only
    rw [if_neg (by omega)]
    rfl
  · rw [exec_mapLoadRead hb hr, if_neg (by omega), loadSlot_of_accepted (by exact (reloadAccepted_iff _ _ _ _).mpr ok)]
    dsimp only
    rw [if_pos (by omega)]
    rfl
  · rw [exec_mapLoadRead hb hr, if_neg (by omega),
      loadSlot_of_refused (fun ok => hn ((reloadAccepted_iff _ _ _ _).mp ok))]
  · show execRecoveryReadJerr s = _
    unfold execRecoveryReadJerr
    rw [act_of_live hb.1, jOwned_of_read hb]
    dsimp only
    rw [if_pos he, freeJ_eq]

end Sys2Proof.Machine
end

section
/-! Chapters 5, 9 and 10: CHECKPOINT, RELEASE, the reports, SET_POLICY and the notices (R86, R95, R100, R101, R168 to
R177, R186, R187). -/

namespace Sys2Proof.Machine

open Sys2Proof.Safety

/-! ## CHECKPOINT and RELEASE -/

theorem exec_checkpoint_of_refused {f : Frame} {s : State} (h : frameExecutes 0x0A f s) {reason : Status}
    (hr : cutFailure s = some reason) : exec (.checkpoint f) s = .next (arbitrate (answered f reason [] s)) := by
  show execCheckpoint f s = _
  unfold execCheckpoint
  rw [act_judgeFrame_of_executes _ h, show cutFailure (holding 0x0A f s) = _ from hr]
  rfl

/-- The state in which a checkpoint's cut has been claimed. -/
def checkpointClaimed (f : Frame) (s : State) : State :=
  answered f .accepted (be32 (s.epochs.lastUsed + 1))
    { s with epochs.ckptInFlight := true, transit.claims.cut := some .checkpoint }

theorem exec_checkpoint_of_accepted {f : Frame} {s : State} (h : frameExecutes 0x0A f s)
    (hr : cutFailure s = none) : exec (.checkpoint f) s = .next (arbitrate
      (if s.transit.access.isNone then claimTaken (checkpointClaimed f s) else checkpointClaimed f s)) := by
  show execCheckpoint f s = _
  unfold execCheckpoint
  rw [act_judgeFrame_of_executes _ h, show cutFailure (holding 0x0A f s) = _ from hr]
  dsimp only
  rw [claimed_eq]
  rfl

/-- The checks of R100, in order. -/
theorem releaseRefusal_eq (e : Word) (s : State) : releaseRefusal e s =
    if ¬ ((s.epochs.engine = .journaling ∨ s.epochs.engine = .held) ∧ s.epochs.startClaimed = false) then
      some .wrongState
    else if ¬ s.epochs.ckptInFlight = false then some .ckptInFlight
    else if ¬ e ≠ 0 then some .badParam
    else if ¬ ∃ x ∈ s.epochs.table, x.epoch = e then some .notRetained
    else if ¬ e.toNat < s.currentEpoch.toNat then some .badParam
    else if ¬ (s.epochs.engine = .held → e.toNat < s.epochs.pendingTarget.toNat) then some .badParam
    else none := by
  have state : ((s.epochs.engine ≠ .journaling ∧ s.epochs.engine ≠ .held) ∨ s.epochs.startClaimed = true) ↔
      ¬ ((s.epochs.engine = .journaling ∨ s.epochs.engine = .held) ∧ s.epochs.startClaimed = false) := by
    rw [not_and_or, not_or, Bool.not_eq_false]
  have above : (s.epochs.engine = .held ∧ ¬ e.toNat < s.epochs.pendingTarget.toNat) ↔
      ¬ (s.epochs.engine = .held → e.toNat < s.epochs.pendingTarget.toNat) := by
    rw [Classical.not_imp]
  unfold releaseRefusal
  simp only [state, above, entryOf_isNone_iff, BitVec.lt_def, Bool.not_eq_false, not_not, ne_eq]

theorem exec_release_of_refused {f : Frame} {s : State} {e : Word} (h : frameExecutes 0x0B f s)
    (he : f.params = be32 e) {st : Status} (hr : releaseRefusal e s = some st) :
    exec (.release f) s = .next (arbitrate (answered f st [] s)) := by
  show execRelease f s = _
  unfold execRelease
  rw [act_judgeFrame_of_executes _ h, he, wordBe_be32, show releaseRefusal e (holding 0x0B f s) = _ from hr]
  rfl

theorem exec_release_of_taken {f : Frame} {s : State} {e : Word} (h : frameExecutes 0x0B f s)
    (he : f.params = be32 e) (hr : releaseRefusal e s = none) :
    exec (.release f) s = .next (arbitrate (takeRelease e (holding 0x0B f s))) := by
  show execRelease f s = _
  unfold execRelease
  rw [act_judgeFrame_of_executes _ h, he, wordBe_be32, show releaseRefusal e (holding 0x0B f s) = _ from hr]

/-- Settles O46: CHECKPOINT by `cutFailure`, RELEASE by `releaseRefusal_eq` and `takeRelease`. -/
theorem checkpointAndRelease : Obligations.CheckpointAndRelease := by
  unfold Obligations.CheckpointAndRelease
  dsimp only
  refine ⟨fun f s h => ⟨fun reason hr => exec_checkpoint_of_refused h hr, fun hr => ⟨fun ha => ?_, fun ha => ?_⟩⟩,
    fun f s e h he => ?_⟩
  · rw [exec_checkpoint_of_accepted h hr, if_neg (by simpa using Option.ne_none_iff_isSome.mpr ha)]
    rfl
  · obtain ⟨⟨⟨hp, hsettled⟩, -⟩, -⟩ := id h
    have claims : (checkpointClaimed f s).transit.claims = ⟨false, some .checkpoint, none⟩ := by
      show Claims.mk s.transit.claims.commit _ s.transit.claims.start = _
      rw [hsettled ha]
      rfl
    have alone := exec_cutTaken_alone (s := checkpointClaimed f s) hp ha claims
    rw [exec_checkpoint_of_accepted h hr, if_pos (by rw [ha]; rfl)]
    exact alone.symm
  · have checks := releaseRefusal_eq e s
    have refused {st : Status} (hr : releaseRefusal e s = some st) := exec_release_of_refused h he hr
    refine ⟨fun c1 => refused ?_, fun c1 c2 => refused ?_, fun c1 c2 c3 => refused ?_, fun c1 c2 c3 c4 => refused ?_,
      fun c1 c2 c3 c4 c5 => refused ?_, fun c1 c2 c3 c4 c5 c6 => refused ?_, fun c1 c2 c3 c4 c5 c6 first rest ht => ?_⟩
    · rw [checks, if_pos c1]
    · rw [checks, if_neg (not_not.mpr c1), if_pos c2]
    · rw [checks, if_neg (not_not.mpr c1), if_neg (not_not.mpr c2), if_pos c3]
    · rw [checks, if_neg (not_not.mpr c1), if_neg (not_not.mpr c2), if_neg (not_not.mpr c3), if_pos c4]
    · rw [checks, if_neg (not_not.mpr c1), if_neg (not_not.mpr c2), if_neg (not_not.mpr c3), if_neg (not_not.mpr c4),
        if_pos c5]
    · rw [checks, if_neg (not_not.mpr c1), if_neg (not_not.mpr c2), if_neg (not_not.mpr c3), if_neg (not_not.mpr c4),
        if_neg (not_not.mpr c5), if_pos c6]
    · rw [if_neg (not_not.mpr c1), if_neg (not_not.mpr c2), if_neg (not_not.mpr c3), if_neg (not_not.mpr c4),
        if_neg (not_not.mpr c5), if_neg (not_not.mpr c6)] at checks
      have kept : keptEntries (holding 0x0B f s).epochs.table e = first :: rest := ht
      rw [exec_release_of_taken h he checks, takeRelease]
      dsimp only
      rw [kept]
      rfl

/-! ## Numbers on the link (R185) -/

theorem beBytes_one (x : Nat) : beBytes 1 x = [BitVec.ofNat 8 x] := by
  simp [beBytes]

theorem length_beBytes (n x : Nat) : (beBytes n x).length = n := by
  induction n with
  | zero => rfl
  | succ n ih => rw [beBytes, List.length_cons, ih]

theorem getElem?_beBytes {n i : Nat} (x : Nat) (h : i < n) :
    (beBytes n x)[i]? = some (BitVec.ofNat 8 (x / 256 ^ (n - 1 - i))) := by
  induction n generalizing i with
  | zero => omega
  | succ n ih =>
    cases i with
    | zero => rfl
    | succ i =>
      rw [beBytes, List.getElem?_cons_succ, ih (by omega)]
      congr 4
      omega

theorem fieldBe_of_four {bs : List Byte} {off n : Nat} (h : field bs off 4 = beBytes 4 n) :
    fieldBe bs off 4 = n % 4294967296 := by
  rw [fieldBe, h]
  simp only [beBytes, ofBe, List.foldl_cons, List.foldl_nil, BitVec.toNat_ofNat]
  omega

theorem fieldBe_of_two {bs : List Byte} {off n : Nat} (h : field bs off 2 = beBytes 2 n) :
    fieldBe bs off 2 = n % 65536 := by
  rw [fieldBe, h]
  simp only [beBytes, ofBe, List.foldl_cons, List.foldl_nil, BitVec.toNat_ofNat]
  omega

theorem byteAt_of_field {bs : List Byte} {off : Nat} {b : Byte} (h : field bs off 1 = [b]) : byteAt bs off = b := by
  have first : (bs.drop off).head? = some b := by
    cases hd : bs.drop off with
    | nil => simp [field, hd] at h
    | cons b t => simpa [field, hd] using h
  rw [List.head?_drop] at first
  simp [byteAt, List.getD_eq_getElem?_getD, first]

theorem byteAt_of_one {bs : List Byte} {off n : Nat} (h : field bs off 1 = beBytes 1 n) :
    byteAt bs off = BitVec.ofNat 8 n := byteAt_of_field (h.trans (beBytes_one n))

theorem field_append_left {a : List Byte} (b : List Byte) {off n : Nat} (h : off + n ≤ a.length) :
    field (a ++ b) off n = field a off n := by
  rw [field, field, List.drop_append_of_le_length (by omega), List.take_append_of_le_length]
  rw [List.length_drop]
  omega

theorem field_append_right {a : List Byte} (b : List Byte) {off n : Nat} :
    field (a ++ b) (a.length + off) n = field b off n := by
  rw [field, field, List.drop_append, List.drop_eq_nil_of_le (by omega), Nat.add_sub_cancel_left, List.nil_append]

/-! ## Reports (R86, R168, R169, R187) -/

theorem field_statusEpochs (s : State) {off n : Nat} (h : off + n ≤ 36) :
    field (statusData s) off n = field (statusEpochs s) off n := by
  unfold statusData
  rw [List.append_assoc, List.append_assoc, field_append_left _ h]

theorem field_statusGeometry (s : State) {off n : Nat} (h : off + n ≤ 16) :
    field (statusData s) (36 + off) n = field (statusGeometry s) off n := by
  unfold statusData
  rw [List.append_assoc, List.append_assoc]
  exact (field_append_right _).trans (field_append_left _ h)

theorem field_statusJournal (s : State) {off n : Nat} (h : off + n ≤ 33) :
    field (statusData s) (52 + off) n = field (statusJournal s) off n := by
  unfold statusData
  rw [List.append_assoc]
  exact (field_append_right (a := statusEpochs s ++ statusGeometry s) _).trans (field_append_left _ h)

theorem field_statusPolicy (s : State) (off n : Nat) :
    field (statusData s) (85 + off) n = field (statusPolicy s) off n :=
  field_append_right (a := statusEpochs s ++ statusGeometry s ++ statusJournal s) _

theorem length_statusData (s : State) : (statusData s).length = 99 := by
  simp [statusData, statusEpochs, statusGeometry, statusJournal, statusPolicy, length_beBytes, be32, be16]

/-- The report's values of the Epoch Controller and of the MARKER write. -/
theorem statusData_epochs (s : State) :
    byteAt (statusData s) 0 = s.epochs.engine.code ∧ byteAt (statusData s) 1 = Bool.code s.epochs.startClaimed ∧
    byteAt (statusData s) 2 = s.epochs.walker.state.code ∧
    byteAt (statusData s) 3 = Bool.code s.epochs.breakRecording ∧
    byteAt (statusData s) 4 = Bool.code s.epochs.ckptInFlight ∧
    byteAt (statusData s) 5 = BitVec.ofNat 8 s.epochs.pendingMark ∧
    byteAt (statusData s) 6 = BitVec.ofNat 8 s.epochs.table.length ∧
    byteAt (statusData s) 7 = s.journal.marker.code ∧
    wordBe (statusData s) 8 = s.epochs.pendingTarget ∧ wordBe (statusData s) 12 = s.currentEpoch ∧
    wordBe (statusData s) 16 = s.oldestEpoch ∧ wordBe (statusData s) 20 = s.epochs.lastUsed ∧
    wordBe (statusData s) 24 = s.epochs.latestBroken ∧ wordBe (statusData s) 28 = markerEpoch s.journal.marker ∧
    fieldBe (statusData s) 32 4 = markerSlot s.journal.marker % 4294967296 := by
  have at' {off n : Nat} (h : off + n ≤ 36) := field_statusEpochs s h
  exact ⟨byteAt_of_field ((at' (by decide)).trans rfl), byteAt_of_field ((at' (by decide)).trans rfl),
    byteAt_of_field ((at' (by decide)).trans rfl), byteAt_of_field ((at' (by decide)).trans rfl),
    byteAt_of_field ((at' (by decide)).trans rfl), byteAt_of_one ((at' (by decide)).trans rfl),
    byteAt_of_one ((at' (by decide)).trans rfl), byteAt_of_field ((at' (by decide)).trans rfl),
    wordBe_of_field ((at' (by decide)).trans rfl), wordBe_of_field ((at' (by decide)).trans rfl),
    wordBe_of_field ((at' (by decide)).trans rfl), wordBe_of_field ((at' (by decide)).trans rfl),
    wordBe_of_field ((at' (by decide)).trans rfl), wordBe_of_field ((at' (by decide)).trans rfl),
    fieldBe_of_four ((at' (by decide)).trans rfl)⟩

/-- The report's values of the ring, the header writer and the sweeps. -/
theorem statusData_journal (s : State) :
    fieldBe (statusData s) 52 4 = s.journal.head % 4294967296 ∧
    fieldBe (statusData s) 56 4 = s.journal.tail % 4294967296 ∧
    fieldBe (statusData s) 60 4 = s.journal.occupied % 4294967296 ∧
    fieldBe (statusData s) 64 4 = s.journal.held % 4294967296 ∧
    fieldBe (statusData s) 68 4 = s.free % 4294967296 ∧ wordBe (statusData s) 72 = s.journal.sequence ∧
    wordBe (statusData s) 76 = s.journal.header.generation ∧
    byteAt (statusData s) 80 = optCode Copy.code s.journal.header.last ∧
    byteAt (statusData s) 81 = Bool.code s.journal.header.dirty ∧
    byteAt (statusData s) 82 = optCode Copy.code (s.journal.header.inFlight.map fun j => j.copy) ∧
    byteAt (statusData s) 83 = optCode MapId.code (s.maps.running.map fun r => r.map) ∧
    byteAt (statusData s) 84 = optCode MapId.code s.maps.queued := by
  have at' (off : Nat) {n : Nat} (h : off + n ≤ 33) := field_statusJournal s h
  exact ⟨fieldBe_of_four ((at' 0 (by decide)).trans rfl), fieldBe_of_four ((at' 4 (by decide)).trans rfl),
    fieldBe_of_four ((at' 8 (by decide)).trans rfl), fieldBe_of_four ((at' 12 (by decide)).trans rfl),
    fieldBe_of_four ((at' 16 (by decide)).trans rfl), wordBe_of_field ((at' 20 (by decide)).trans rfl),
    wordBe_of_field ((at' 24 (by decide)).trans rfl), byteAt_of_field ((at' 28 (by decide)).trans rfl),
    byteAt_of_field ((at' 29 (by decide)).trans rfl), byteAt_of_field ((at' 30 (by decide)).trans rfl),
    byteAt_of_field ((at' 31 (by decide)).trans rfl), byteAt_of_field ((at' 32 (by decide)).trans rfl)⟩

/-- A sixteen-bit number on the link is read back. -/
theorem ofBe_be16 (x : BitVec 16) : ofBe (be16 x) = x.toNat := by
  have := x.isLt
  simp only [be16, beBytes, ofBe, List.foldl_cons, List.foldl_nil, BitVec.toNat_ofNat]
  omega

/-- The report's values of the upstream side, the policy and the notices. -/
theorem statusData_policy (s : State) :
    byteAt (statusData s) 85 = transitCode s ∧
    fieldBe (statusData s) 86 2 = (s.transit.timer.getD 0) % 65536 ∧
    byteAt (statusData s) 88 = s.transit.fullMode.code ∧
    byteAt (statusData s) 89 = BitVec.ofNat 8 s.transit.clockRate ∧
    fieldBe (statusData s) 90 2 = s.transit.holdLimit % 65536 ∧
    fieldBe (statusData s) 92 4 = s.journal.lowWater % 4294967296 ∧
    fieldBe (statusData s) 96 2 = s.notices.mask.toNat ∧
    byteAt (statusData s) 98 = BitVec.ofNat 8 s.notices.list.length := by
  have mask : fieldBe (statusData s) 96 2 = s.notices.mask.toNat := by
    have word : field (statusData s) 96 2 = be16 (s.notices.mask.setWidth 16) := field_statusPolicy s 11 2
    rw [fieldBe, word, ofBe_be16, BitVec.toNat_setWidth, Nat.mod_eq_of_lt]
    exact Nat.lt_trans s.notices.mask.isLt (by decide)
  exact ⟨byteAt_of_field (field_statusPolicy s 0 1), fieldBe_of_two (field_statusPolicy s 1 2),
    byteAt_of_field (field_statusPolicy s 3 1), byteAt_of_one (field_statusPolicy s 4 1),
    fieldBe_of_two (field_statusPolicy s 5 2), fieldBe_of_four (field_statusPolicy s 7 4), mask,
    byteAt_of_one (field_statusPolicy s 13 1)⟩

/-- The report's values of the geometry and the maps. -/
theorem statusData_geometry (s : State) :
    byteAt (statusData s) 36 = Bool.code s.journal.geometry.isSome ∧
    byteAt (statusData s) 38 = s.maps.m0.state.code ∧ byteAt (statusData s) 39 = s.maps.m1.state.code ∧
    (∀ g : Geometry, s.journal.geometry = some g → byteAt (statusData s) 37 = BitVec.ofNat 8 g.window.code ∧
      wordBe (statusData s) 40 = g.identity ∧ fieldBe (statusData s) 44 4 = g.slotCount % 4294967296 ∧
      fieldBe (statusData s) 48 4 = g.window.base % 4294967296) ∧
    (s.journal.geometry = none →
      field (statusData s) 37 1 = [0] ∧ field (statusData s) 40 12 = List.replicate 12 0) := by
  have at' (off : Nat) {n : Nat} (h : off + n ≤ 16) := field_statusGeometry s h
  refine ⟨byteAt_of_field ((at' 0 (by decide)).trans rfl), byteAt_of_field ((at' 2 (by decide)).trans rfl),
    byteAt_of_field ((at' 3 (by decide)).trans rfl), fun g hg => ?_, fun hg => ?_⟩
  · have found : s.journal.geometry.getD ⟨0, 0, ⟨0, 0⟩⟩ = g := by rw [hg]; rfl
    rw [← found]
    exact ⟨byteAt_of_one ((at' 1 (by decide)).trans rfl), wordBe_of_field ((at' 4 (by decide)).trans rfl),
      fieldBe_of_four ((at' 8 (by decide)).trans rfl), fieldBe_of_four ((at' 12 (by decide)).trans rfl)⟩
  · have absent : s.journal.geometry.getD ⟨0, 0, ⟨0, 0⟩⟩ = ⟨0, 0, ⟨0, 0⟩⟩ := by rw [hg]; rfl
    refine ⟨(at' 1 (by decide)).trans ?_, (at' 4 (by decide)).trans ?_⟩
    · unfold statusGeometry
      rw [absent]
      rfl
    · unfold statusGeometry
      rw [absent]
      rfl

/-- Settles O47: each value at its offset, each code by evaluation. -/
theorem reportsOfState : Obligations.ReportsOfState := by
  unfold Obligations.ReportsOfState
  dsimp only
  refine ⟨fun f s => ⟨fun h => ?_, fun h => quiet_judgeFrame_of_executes _ h⟩, fun s => ?_,
    fun f s h => ⟨fun he => ?_, fun h1 h2 => ?_⟩, rfl, rfl, fun s => ?_, rfl, rfl, fun j e i => ⟨rfl, rfl, rfl⟩, rfl,
    rfl, rfl, rfl, rfl, fun n x i hi => getElem?_beBytes x hi, length_beBytes⟩
  · have data : identifyData =
        [0x4D, 0x54, 0x22, 0x40, 0x01, 0x0C, 0x10, 0x00, 0x02, 0x80, 0x00, 0x0C] := by decide
    show execIdentify f s = _
    unfold execIdentify
    rw [quiet_judgeFrame_of_executes _ h, data]
    rfl
  · obtain ⟨e0, e1, e2, e3, e4, e5, e6, e7, e8, e9, e10, e11, e12, e13, e14⟩ := statusData_epochs s
    obtain ⟨g0, g1, g2, g3, g4⟩ := statusData_geometry s
    obtain ⟨j0, j1, j2, j3, j4, j5, j6, j7, j8, j9, j10, j11⟩ := statusData_journal s
    exact ⟨length_statusData s, e0, e1, e2, e3, e4, e5, e6, e7, e8, e9, e10, e11, e12, e13, e14, g0, g1, g2, g3, g4,
      j0, j1, j2, j3, j4, j5, j6, j7, j8, j9, j10, j11, statusData_policy s⟩
  · show execReadEpochs f s = _
    unfold execReadEpochs
    rw [quiet_judgeFrame_of_executes _ h]
    exact congrArg _ (if_pos he)
  · show execReadEpochs f s = _
    unfold execReadEpochs
    rw [quiet_judgeFrame_of_executes _ h, if_neg (by rintro (he | he); exacts [h1 he, h2 he])]
    unfold readEpochsData
    rw [beBytes_one]
    rfl
  · unfold transitCode
    cases s.transit.access <;> rfl

/-! ## SET_POLICY (R171) -/

theorem FullMode.ofCode_eq (b : Byte) : FullMode.ofCode b =
    if b.toNat ≤ 1 then some (if b = 0 then .stall else .brk) else none := by
  unfold FullMode.ofCode
  split
  · rename_i h
    have zero : b = 0 := BitVec.eq_of_toNat_eq h
    rw [zero]
    rfl
  · rename_i h
    have one : b = 1 := BitVec.eq_of_toNat_eq h
    rw [one]
    rfl
  · rename_i h0 h1
    have not0 : b.toNat ≠ 0 := h0
    have not1 : b.toNat ≠ 1 := h1
    rw [if_neg (by omega)]

/-- SET_POLICY's parameters, encoded and read back (R185). -/
theorem setPolicyParams_encoded (mode rate : Byte) {hold low mask : Nat} (h1 : hold < 65536) (h2 : low < 4294967296)
    (h3 : mask < 65536) :
    setPolicyParams ([mode] ++ beBytes 2 hold ++ beBytes 4 low ++ [rate] ++ beBytes 2 mask) =
      if mode.toNat ≤ 1 ∧ 1 ≤ hold ∧ low ≤ 163840 ∧ 20 ≤ rate.toNat ∧ rate.toNat ≤ 133 ∧ mask < 4096 then
        some ⟨if mode = 0 then .stall else .brk, hold, low, rate.toNat, BitVec.ofNat 12 mask⟩
      else none := by
  have first : byteAt ([mode] ++ beBytes 2 hold ++ beBytes 4 low ++ [rate] ++ beBytes 2 mask) 0 = mode := rfl
  have seventh : byteAt ([mode] ++ beBytes 2 hold ++ beBytes 4 low ++ [rate] ++ beBytes 2 mask) 7 = rate := rfl
  have limit : Config.maxSlotCount = 163840 := rfl
  unfold setPolicyParams
  dsimp only
  rw [first, seventh, fieldBe_of_two (n := hold) rfl, fieldBe_of_field h2 rfl, fieldBe_of_two (n := mask) rfl,
    Nat.mod_eq_of_lt h1, Nat.mod_eq_of_lt h3, FullMode.ofCode_eq, limit]
  by_cases hm : mode.toNat ≤ 1
  · rw [if_pos hm]
    simp only [hm, true_and]
  · rw [if_neg hm]
    simp only [hm, false_and, if_false]

theorem exec_setPolicy {f : Frame} {s : State} (h : frameExecutes 0x07 f s) : exec (.setPolicy f) s =
    .next (match setPolicyParams f.params with
      | none => answered f .badParam [] s
      | some p => answered f .ok [] (installPolicy p s)) := by
  show execSetPolicy f s = _
  unfold execSetPolicy
  rw [quiet_judgeFrame_of_executes _ h]
  cases setPolicyParams f.params <;> rfl

/-- Settles O48: by the parameters as they are read back. -/
theorem setPolicy : Obligations.SetPolicy := by
  unfold Obligations.SetPolicy
  dsimp only
  intro f s mode hold low mask rate h h1 h2 h3 hp
  have effect := exec_setPolicy h
  rw [hp, setPolicyParams_encoded mode rate h1 h2 h3] at effect
  refine ⟨fun legal => ?_, fun illegal => ?_⟩
  · rw [effect, if_pos legal]
    rfl
  · rw [effect, if_neg illegal]

/-! ## Notices (R173 to R177, R187) -/

theorem length_detail_le (n : Notice) : n.detail.length ≤ 10 := by
  cases n <;> simp [Notice.detail, be32, length_beBytes]

theorem NoticeEntry.bytes_eq (e : NoticeEntry) : e.bytes =
    [BitVec.ofNat 8 e.notice.kind, BitVec.ofNat 8 e.count] ++ e.notice.detail ++ List.replicate
      (12 - ([BitVec.ofNat 8 e.notice.kind, BitVec.ofNat 8 e.count] ++ e.notice.detail).length) 0 := by
  have fill : 12 - ([BitVec.ofNat 8 e.notice.kind, BitVec.ofNat 8 e.count] ++ e.notice.detail).length =
      10 - e.notice.detail.length := by
    simp only [List.length_append, List.length_cons, List.length_nil]
    omega
  rw [fill, NoticeEntry.bytes, beBytes_one, beBytes_one]
  rfl

theorem NoticeEntry.length_bytes (e : NoticeEntry) : e.bytes.length = 12 := by
  have := length_detail_le e.notice
  simp only [NoticeEntry.bytes, List.length_append, length_beBytes, zeros, List.length_replicate]
  omega

theorem postList_of_new {l : List NoticeEntry} {n : Notice} (h : ∀ e ∈ l, e.notice.kind ≠ n.kind) :
    postList l n = l ++ [⟨1, n⟩] := by
  induction l with
  | nil => rfl
  | cons e t ih =>
    rw [postList, if_neg (h e List.mem_cons_self), ih fun x hx => h x (List.mem_cons_of_mem _ hx)]
    rfl

theorem postList_of_merged {l r : List NoticeEntry} {e : NoticeEntry} {n : Notice}
    (h : ∀ x ∈ l, x.notice.kind ≠ n.kind) (he : e.notice.kind = n.kind) :
    postList (l ++ e :: r) n = l ++ ⟨min 255 (e.count + 1), e.notice⟩ :: r := by
  induction l with
  | nil => exact if_pos he
  | cons x t ih =>
    rw [List.cons_append, postList, if_neg (h x List.mem_cons_self), ih fun y hy => h y (List.mem_cons_of_mem _ hy)]
    rfl

theorem post_of_masked {n : Notice} {s : State} (h : s.notices.mask.getLsbD (n.kind - 1) = true) : post n s = s :=
  if_pos h

theorem post_of_unmasked {n : Notice} {s : State} (h : s.notices.mask.getLsbD (n.kind - 1) = false) :
    post n s = { s with notices.list := postList s.notices.list n } := by
  refine if_neg ?_
  show ¬ s.notices.mask.getLsbD (n.kind - 1) = true
  rw [h]
  exact Bool.false_ne_true

/-- Settles O49: the reading by the list's head, a post by `postList`, the details by their definition. -/
theorem notices : Obligations.Notices := by
  unfold Obligations.Notices
  dsimp only
  refine ⟨fun f s h => ⟨fun hl => ?_, fun e rest hl => ⟨?_, ?_⟩⟩, fun s => ?_,
    fun n s => ⟨post_of_masked, fun hm => ⟨fun hnew => ?_, fun l r e hl hnew he => ?_⟩⟩, ?_⟩
  · show execReadNotice f s = _
    unfold execReadNotice
    rw [quiet_judgeFrame_of_executes _ h, show (holding 0x0F f s).notices.list = [] from hl]
    rfl
  · show execReadNotice f s = _
    unfold execReadNotice
    rw [quiet_judgeFrame_of_executes _ h, show (holding 0x0F f s).notices.list = e :: rest from hl, ← e.bytes_eq]
    rfl
  · rw [← e.bytes_eq]
    exact e.length_bytes
  · simp [State.attn]
  · rw [post_of_unmasked hm, postList_of_new hnew]
  · rw [post_of_unmasked hm, hl, postList_of_merged hnew he]
  · refine ⟨fun e c slot merged => ⟨rfl, ?_⟩, fun _ => ⟨rfl, rfl⟩, fun addr priv region => ⟨rfl, ?_⟩,
      fun addr write e => ⟨rfl, ?_⟩, fun _ _ => ⟨rfl, rfl⟩, fun _ => ⟨⟨rfl, rfl⟩, rfl, rfl⟩, fun _ => ⟨rfl, rfl⟩,
      fun _ => ⟨⟨rfl, rfl⟩, ⟨rfl, rfl⟩, ⟨rfl, rfl⟩, rfl, rfl⟩, fun _ _ => ⟨rfl, rfl⟩,
      fun _ => ⟨⟨rfl, rfl⟩, ⟨rfl, rfl⟩, ⟨rfl, rfl⟩, rfl, rfl⟩, ⟨⟨rfl, rfl⟩, rfl, rfl⟩,
      fun o epochs records => ⟨rfl, ?_⟩, rfl⟩
    · rw [Notice.detail, beBytes_one]
      rfl
    · rw [Notice.detail, beBytes_one, List.append_assoc]
      rfl
    · rfl
    · rw [Notice.detail, beBytes_one]
      rfl

end Sys2Proof.Machine
end

section
/-! Chapters 4 and 9: READ_SLOT, transactions, the frames that are not executed, the bytes and bits of a frame, and the
arbiters (R43, R62, R80, R158 to R167, R185). -/

namespace Sys2Proof.Machine

open Sys2Proof.Safety

/-! ## READ_SLOT (R80) -/

theorem exec_readSlot {f : Frame} {s : State} (h : frameExecutes 0x10 f s) : exec (.readSlot f) s = .next (arbitrate
    (if s.epochs.engine = .formatting ∨ s.epochs.engine = .recovering then answered f .busy [] s
    else if fieldBe f.params 0 4 < slotLimit s then
      holding 0x10 f { s with journal.readSlot := some ⟨fieldBe f.params 0 4, []⟩ }
    else answered f .badParam [] s)) := by
  show execReadSlot f s = _
  unfold execReadSlot
  exact act_judgeFrame_of_executes _ h

theorem exec_readSlotDone {s : State} {addr : Nat} {j : ReadSlotJob} (h : readsJ s .readSlot addr)
    (hj : s.journal.readSlot = some j) : exec .readSlotDone s = .next (arbitrate
      (if (j.buffer ++ s.jmem.readBytes addr 16).length < 96 then
        { jFree s with journal.readSlot := some { j with buffer := j.buffer ++ s.jmem.readBytes addr 16 } }
      else answer .ok (readSlotData s j.slot (j.buffer ++ s.jmem.readBytes addr 16))
        { jFree s with journal.readSlot := none })) := by
  show execReadSlotDone s = _
  unfold execReadSlotDone
  rw [act_of_live h.1, jOwned_of_read h]
  simp only [hj]
  rfl

theorem slotLimit_eq (s : State) : slotLimit s = match s.journal.geometry with
    | some g => g.slotCount
    | none => 163840 := by
  unfold slotLimit
  cases s.journal.geometry <;> rfl

/-- The distance in ring order from head. -/
theorem ringDist_eq_mod {n h i : Nat} (hh : h < n) (hi : i < n) : ringDist n h i = (i + n - h) % n := by
  unfold ringDist
  split
  · rw [show i + n - h = (i - h) + n by omega, Nat.add_mod_right, Nat.mod_eq_of_lt (by omega)]
  · rw [Nat.mod_eq_of_lt (by omega)]
    omega

theorem standingOf_of_geometry {s : State} {g : Geometry} (hg : s.journal.geometry = some g) (i : Nat) :
    standingOf s i =
      if ringDist g.slotCount s.journal.head i < s.journal.occupied - s.journal.held then .inJournal
      else if 0 < ringDist g.slotCount i s.journal.head ∧ ringDist g.slotCount i s.journal.head ≤ s.journal.held then
        .held
      else .free := by
  unfold standingOf
  rw [hg]

/-- The distances between two slots, one way round the ring and the other. -/
theorem ringDist_back {n h i : Nat} (hh : h < n) (hi : i < n) (hne : i ≠ h) :
    ringDist n i h = n - ringDist n h i ∧ 0 < ringDist n h i ∧ ringDist n h i < n := by
  unfold ringDist
  split <;> split <;> omega

theorem ringDist_self (n h : Nat) : ringDist n h h = 0 := by
  simp [ringDist]

/-- Settles O50: the command by `exec_readSlot`, the standings by the distance from head. -/
theorem readSlot : Obligations.ReadSlot := by
  unfold Obligations.ReadSlot
  dsimp only
  refine ⟨fun f s i h hi hp => ?_, fun s addr j code tag lost h hj hl => ⟨fun short => ?_, fun full => ?_, ?_⟩,
    fun s i => ⟨fun hg => ?_, fun g hg hh hi hheld hocc => ⟨fun near => ?_, fun far => ?_, fun h1 h2 => ?_⟩⟩, rfl, rfl⟩
  · have slot : fieldBe f.params 0 4 = i := by
      rw [hp]
      exact fieldBe_of_field hi rfl
    have effect := exec_readSlot h
    rw [slot, slotLimit_eq] at effect
    refine ⟨fun busy => ?_, fun idle outside => ?_, fun idle inside => ?_⟩
    · rw [effect, if_pos busy]
    · rw [effect, if_neg idle, if_neg (by exact not_lt.mpr outside)]
    · rw [effect, if_neg idle, if_pos (by exact inside)]
  · rw [exec_readSlotDone h hj, if_pos short]
  · rw [exec_readSlotDone h hj, if_neg (by omega), answer_eq, answerLink]
    rw [show (jFree s).link.slot = _ from hl]
    rfl
  · show execReadSlotJerr s = _
    unfold execReadSlotJerr
    rw [act_of_live h.1, jOwned_of_read h]
    dsimp only
    rw [answer_eq, answerLink, show (endReadSlot (freeJ s)).link.slot = _ from hl]
    rfl
  · unfold standingOf
    rw [hg]
  · rw [standingOf_of_geometry hg, if_pos (by rw [ringDist_eq_mod hh hi]; exact near)]
  all_goals
    rw [← ringDist_eq_mod hh hi] at *
    have hne : i ≠ s.journal.head := by
      rintro rfl
      simp only [ringDist_self] at *
      omega
    obtain ⟨back, pos, lt⟩ := ringDist_back hh hi hne
    rw [standingOf_of_geometry hg, back, if_neg (by omega)]
  · rw [if_pos (by omega)]
  · rw [if_neg (by omega)]

end Sys2Proof.Machine
end

section
/-! Chapters 4 and 9: transactions, the frames that are not executed, the bytes and bits of a frame, and the arbiters
(R43, R62, R158 to R167, R185). -/

namespace Sys2Proof.Machine

open Sys2Proof.Safety

/-! ## Transactions (R158 to R167) -/

theorem responseFrame_eq (tag : Byte) (st : Status) (data : List Byte) (lost : Bool) : responseFrame tag st data lost =
    [0x3C] ++ ([tag, st.code, if lost then 1 else 0, BitVec.ofNat 8 data.length] ++ data) ++
      [crc8 ([tag, st.code, if lost then 1 else 0, BitVec.ofNat 8 data.length] ++ data)] := by
  unfold responseFrame
  rw [beBytes_one]
  rfl

theorem msoAtStart_of_not_ready {slot : Slot}
    (h : ∀ (tag : Byte) (st : Status) (data : List Byte) (lost : Bool), slot ≠ .ready tag st data lost) :
    msoAtStart slot = [] := by
  cases slot with
  | empty => rfl
  | executing => rfl
  | ready tag st data lost => exact absurd rfl (h tag st data lost)

theorem exec_transactionStart_idle {s : State} (h : live s) (hf : s.link.framer = .idle) :
    exec .transactionStart s = .next { s with link := ⟨.first, s.link.slot, msoAtStart s.link.slot, 0, false⟩ } := by
  show execTransactionStart s = _
  unfold execTransactionStart
  rw [quiet_of_live h, hf]
  rfl

/-- A bit of a byte in the order of the wire. -/
theorem getD_byteBits (b : Byte) {k : Nat} (h : k < 8) : (byteBits b).getD k true = b.getLsbD (7 - k) := by
  interval_cases k <;> rfl

theorem outputBit_eq (mso : List Byte) (n : Nat) {k : Nat} (h : k < 8) :
    outputBit mso (8 * n + k) = (mso.getD n 0xFF).getLsbD (7 - k) := by
  unfold outputBit
  rw [show (8 * n + k) / 8 = n by omega, show (8 * n + k) % 8 = k by omega, getD_byteBits _ h]

theorem getLsbD_ones {k : Nat} (h : k < 8) : (0xFF : Byte).getLsbD (7 - k) = true := by
  interval_cases k <;> rfl

/-- Settles O51: the start and the end by their definitions, the bits by `outputBit_eq`. -/
theorem linkTransactions : Obligations.LinkTransactions := by
  unfold Obligations.LinkTransactions
  dsimp only
  refine ⟨fun s h => ⟨fun hf => ⟨fun tag st data lost hl => ?_, fun hl => ?_⟩, fun hf => ?_, ?_⟩,
    fun s h => ⟨fun hm => ?_, fun hm => ?_⟩, fun l n k hk => ⟨fun hf => if_pos hf, fun hf => ⟨fun b hb => ?_,
    fun past => ?_⟩⟩, fun s t msi hp hf ht => ?_⟩
  · rw [exec_transactionStart_idle h hf, hl, msoAtStart, responseFrame_eq]
  · rw [exec_transactionStart_idle h hf, msoAtStart_of_not_ready hl]
  · show execTransactionStart s = _
    unfold execTransactionStart
    rw [quiet_of_live h]
    split
    · exact absurd ‹_› hf
    all_goals rfl
  · show execTransactionEnd s = _
    unfold execTransactionEnd
    rw [quiet_of_live h]
    rfl
  · show execResponseDelivered s = _
    unfold execResponseDelivered
    rw [quiet_of_live h, deliver, if_pos hm]
    rfl
  · show execResponseDelivered s = _
    unfold execResponseDelivered
    rw [quiet_of_live h, deliver, if_neg hm]
    rfl
  · rw [Link.msoBit, if_neg hf, outputBit_eq _ _ hk, List.getD_eq_getElem?_getD, hb, Option.getD_some]
  · rw [Link.msoBit, if_neg hf, outputBit_eq _ _ hk, List.getD_eq_default _ _ past, getLsbD_ones hk]
  · rw [exec_transactionStart_mso hp hf ht]
    rfl

/-! ## Frames that are not executed (R159 to R167) -/

theorem frameCanEnd_of {c : Nat} {l : Link} (hf : l.framer = .first) (hc : l.clocked ≤ c) : frameCanEnd c l = true := by
  simp [frameCanEnd, hf, hc]

theorem atFrameEnd_slot_of_free {c : Nat} {l : Link} (h : slotFreeAt c l) : (atFrameEnd c l).slot = .empty :=
  (deliverBy_of_free h).1

theorem respond_atFrameEnd {c : Nat} {l : Link} (h : slotFreeAt c l) (tag : Byte) (st : Status) :
    respond tag st (atFrameEnd c l) = linkAfter c (.ready tag st [] false) l := atFrameEnd_of_free h _

/-- A frame that ends where the framer allows it, the slot EMPTY, is tested further. -/
theorem judgeFrame_of_free {code : Byte} {f : Frame} {s : State} (owner : State → State)
    (hf : s.link.framer = .first) (hc : s.link.clocked ≤ 5 + f.params.length)
    (h : slotFreeAt (5 + f.params.length) s.link) : judgeFrame code f owner s =
      if !frameCheckOk code f then answered f .badCheck [] s
      else if paramLength code = none then answered f .badCommand [] s
      else if paramLength code ≠ some f.params.length then answered f .badLength [] s
      else owner (holding code f s) := by
  unfold judgeFrame
  dsimp only
  rw [if_pos (frameCanEnd_of hf hc), if_neg (by simp [atFrameEnd_slot_of_free h])]
  cases hp : paramLength code with
  | none =>
    simp only [respond_atFrameEnd h]
    rfl
  | some n =>
    simp only [respond_atFrameEnd h, atFrameEnd_of_free h, ne_eq, Option.some.injEq, reduceCtorEq, if_false, eq_comm]
    rfl

theorem judgeFrame_of_badCheck {code : Byte} {f : Frame} {s : State} (owner : State → State)
    (hf : s.link.framer = .first) (hc : s.link.clocked ≤ 5 + f.params.length)
    (h : slotFreeAt (5 + f.params.length) s.link) (bad : f.check ≠ crc8 (frameChecked code f)) :
    judgeFrame code f owner s = answered f .badCheck [] s := by
  rw [judgeFrame_of_free owner hf hc h, if_pos (by simpa [frameCheckOk] using bad)]

theorem judgeFrame_of_badCommand {code : Byte} {f : Frame} {s : State} (owner : State → State)
    (h : frameJudged code f s) (hp : paramLength code = none) :
    judgeFrame code f owner s = answered f .badCommand [] s := by
  obtain ⟨-, hf, hc, ok, free⟩ := h
  rw [judgeFrame_of_free owner hf hc free, if_neg (by simp [frameCheckOk, ok]), if_pos hp]

theorem judgeFrame_of_badLength {code : Byte} {f : Frame} {s : State} (owner : State → State)
    (h : frameJudged code f s) (hp : paramLength code ≠ none) (hn : paramLength code ≠ some f.params.length) :
    judgeFrame code f owner s = answered f .badLength [] s := by
  obtain ⟨-, hf, hc, ok, free⟩ := h
  rw [judgeFrame_of_free owner hf hc free, if_neg (by simp [frameCheckOk, ok]), if_neg hp, if_pos hn]

/-- The response on MSO, if there is one, is not out yet when byte c ends: it stays in the slot. -/
theorem atFrameEnd_of_staying {c : Nat} {l : Link} (h : c < l.mso.length ∨ l.mso = []) :
    atFrameEnd c l = { l with framer := .discard, clocked := c } := by
  have same : deliverBy c l = l := by
    rcases h with h | h
    · exact if_neg (by omega)
    · simp [deliverBy, deliver, h]
  rw [atFrameEnd, same]

theorem judgeFrame_of_lost {code : Byte} {f : Frame} {s : State} (owner : State → State)
    (hf : s.link.framer = .first) (hc : s.link.clocked ≤ 5 + f.params.length)
    (h : 5 + f.params.length < s.link.mso.length ∨ s.link.mso = []) (hs : s.link.slot ≠ .empty) :
    judgeFrame code f owner s = s.setLink (loseFrame
      { s.link with framer := .discard, clocked := 5 + f.params.length }) := by
  unfold judgeFrame
  dsimp only
  rw [if_pos (frameCanEnd_of hf hc), atFrameEnd_of_staying h, if_pos hs]

theorem exec_lengthOverrun {s : State} (h : live s) (hf : s.link.framer = .first) (hc : s.link.clocked ≤ 4) {len : Byte}
    (hl : 32 < len.toNat) (code tag : Byte) : exec (.lengthOverrun code tag len) s = .next
      (if (atFrameEnd 4 s.link).slot ≠ .empty then s.setLink (loseFrame (atFrameEnd 4 s.link))
      else s.setLink (respond tag .badLength (atFrameEnd 4 s.link))) := by
  have overrun : (frameCanEnd 4 s.link && decide (Config.maxParams < len.toNat)) = true := by
    rw [frameCanEnd_of hf hc, Bool.true_and, decide_eq_true_eq]
    exact hl
  show execLengthOverrun code tag len s = _
  unfold execLengthOverrun
  rw [quiet_of_live h, if_pos overrun]

/-- A frame's command judges it, for its owner or for none (R161). -/
theorem exec_frameCommand (code : Byte) (f : Frame) : ∃ owner : State → State,
    (∀ s, exec (frameCommand code f) s = quiet s (judgeFrame code f owner)) ∨
      ∀ s, exec (frameCommand code f) s = act s (judgeFrame code f owner) := by
  have number : BitVec.ofNat 8 code.toNat = code := by simp
  unfold frameCommand
  split
  case h_17 => exact ⟨_, .inl fun _ => rfl⟩
  case h_1 h | h_2 h | h_3 h | h_4 h | h_6 h | h_7 h | h_14 h | h_15 h =>
    rw [h] at number
    subst number
    exact ⟨_, .inl fun _ => rfl⟩
  all_goals
    rename_i h
    rw [h] at number
    subst number
    exact ⟨_, .inr fun _ => rfl⟩

/-- A frame judged in a live block: what the judging gives, with or without the arbiters. -/
theorem exec_frameCommand_of_live {code : Byte} {f : Frame} {s t : State} (h : live s)
    (judged : ∀ owner : State → State, judgeFrame code f owner s = t) :
    exec (frameCommand code f) s = .next t ∨ exec (frameCommand code f) s = .next (arbitrate t) := by
  obtain ⟨owner, effect | effect⟩ := exec_frameCommand code f
  · left
    rw [effect, quiet_of_live h, judged]
  · right
    rw [effect, act_of_live h, judged]

theorem paramLength_eq_none_iff (code : Byte) : paramLength code = none ↔ isCommandCode code = false := by
  revert code
  decide +kernel

/-- Settles O52: by the test of R161 that a frame fails. -/
theorem framesNotExecuted : Obligations.FramesNotExecuted := by
  unfold Obligations.FramesNotExecuted
  dsimp only
  refine ⟨fun f s => ⟨fun code len h hf hc hl free => ?_, fun code h hn => ?_, fun code => ⟨fun h hf hc free bad => ?_,
    fun hk h hn => ?_⟩⟩, ⟨fun f s code h hf hc hm => ⟨fun c tag lost hl => ?_, fun tag st data lost hl => ?_⟩,
    fun s code tag len h hf hc hn hm => ⟨fun c t lost hl => ?_, fun t st data lost hl => ?_⟩⟩, rfl⟩
  · rw [exec_lengthOverrun h hf hc hl, if_neg (by simp [atFrameEnd_slot_of_free free]), respond_atFrameEnd free]
    rfl
  · show execUnknownCommandFrame code f s = _
    unfold execUnknownCommandFrame
    rw [quiet_of_live h.1, judgeFrame_of_badCommand _ h ((paramLength_eq_none_iff _).mpr hn)]
  · exact exec_frameCommand_of_live h fun owner => judgeFrame_of_badCheck owner hf hc free bad
  · refine exec_frameCommand_of_live h.1 fun owner => judgeFrame_of_badLength owner h ?_ hn
    rw [ne_eq, paramLength_eq_none_iff, hk]
    decide
  · refine exec_frameCommand_of_live h fun owner => ?_
    rw [judgeFrame_of_lost owner hf hc hm (by rw [hl]; nofun)]
    unfold loseFrame
    simp only [hl]
    rfl
  · refine exec_frameCommand_of_live h fun owner => ?_
    rw [judgeFrame_of_lost owner hf hc hm (by rw [hl]; nofun)]
    unfold loseFrame
    simp only [hl]
    rfl
  · rw [exec_lengthOverrun h hf hc hn, atFrameEnd_of_staying hm, if_pos (by rw [hl]; nofun)]
    unfold loseFrame
    simp only [hl]
    rfl
  · rw [exec_lengthOverrun h hf hc hn, atFrameEnd_of_staying hm, if_pos (by rw [hl]; nofun)]
    unfold loseFrame
    simp only [hl]
    rfl

/-! ## The bytes and bits of a frame (R158 to R160, R185) -/

theorem decodeFrame_frameBytes (code : Byte) {f : Frame} (h : f.wellFormed = true) (rest : List Byte) :
    decodeFrame (frameBytes code f ++ rest) = some (frameCommand code f) := by
  have short : f.params.length ≤ 32 := of_decide_eq_true h
  have len : (BitVec.ofNat 8 f.params.length).toNat = f.params.length := by
    rw [BitVec.toNat_ofNat, Nat.mod_eq_of_lt (by omega)]
  have after : (f.params ++ [f.check] ++ rest).drop f.params.length = f.check :: rest := by
    rw [List.append_assoc, List.drop_left]
    rfl
  have before : (f.params ++ [f.check] ++ rest).take f.params.length = f.params := by
    rw [List.append_assoc, List.take_left]
  show decodeFrame (commandSync :: code :: f.tag :: BitVec.ofNat 8 f.params.length :: (f.params ++ [f.check] ++ rest)) = _
  unfold decodeFrame
  dsimp only
  rw [if_pos rfl, len, if_neg (by exact not_lt.mpr short), after, before]

theorem frameCommand_of_unknown {code : Byte} (h : isCommandCode code = false) (f : Frame) :
    frameCommand code f = .unknownCommandFrame code f := by
  have unknown : ¬ (1 ≤ code.toNat ∧ code.toNat ≤ 16) := by simpa [isCommandCode] using h
  unfold frameCommand
  split <;> first | rfl | omega

theorem decodeFrame_encodeFrame {i : Instr} {bytes : List Byte} (h : i.wellFormed = true)
    (he : encodeFrame i = some bytes) (rest : List Byte) : decodeFrame (bytes ++ rest) = some i := by
  cases i
  case lengthOverrun code tag len =>
    obtain rfl := Option.some.inj he
    show decodeFrame (commandSync :: code :: tag :: len :: rest) = _
    unfold decodeFrame
    dsimp only
    rw [if_pos rfl, if_pos (of_decide_eq_true h)]
  case unknownCommandFrame code f =>
    obtain rfl := Option.some.inj he
    obtain ⟨unknown, frame⟩ : isCommandCode code = false ∧ f.wellFormed = true := by
      simpa [Instr.wellFormed] using h
    rw [decodeFrame_frameBytes code frame, frameCommand_of_unknown unknown]
  case identify f | getStatus f | writeRegion f | readRegion f | commitRegions f | revertStaged f | setPolicy f
    | format f | recover f | checkpoint f | release f | rollback f | abort f | readEpochs f | readNotice f | readSlot f =>
    obtain rfl := Option.some.inj he
    exact decodeFrame_frameBytes _ h rest
  all_goals cases he

theorem length_encodeFrame_pos {i : Instr} {bytes : List Byte} (he : encodeFrame i = some bytes) :
    0 < bytes.length := by
  cases bytes with
  | nil => cases i <;> cases he
  | cons b t => exact Nat.succ_pos _

/-- Settles O53: the frame by `decodeFrame_encodeFrame`, its bits by `assembleBytes_of_bits`. -/
theorem framesDecodeToTheirCommands : Obligations.FramesDecodeToTheirCommands := by
  unfold Obligations.FramesDecodeToTheirCommands
  dsimp only
  intro i bytes rest part h he hp
  have decoded := decodeFrame_encodeFrame h he rest
  have assembled := assembleBytes_of_bits (bytes ++ rest) hp
  have commands (r : Nat) : transactionCommands r ((bytes ++ rest).flatMap byteBits ++ part) =
      .transactionStart ::
        ((if r ≤ bytes.length then
            (if 0 < r ∧ r ≤ (bytes ++ rest).length then [Instr.responseDelivered] else []) ++ [i]
          else i :: (if 0 < r ∧ r ≤ (bytes ++ rest).length then [Instr.responseDelivered] else [])) ++
          [.transactionEnd]) := by
    unfold transactionCommands
    dsimp only
    rw [assembled, decoded]
    dsimp only
    rw [he, Option.getD_some]
  have long : bytes.length ≤ (bytes ++ rest).length := by simp
  refine ⟨decoded, assembled, ?_, fun r hr => ⟨fun short => ?_, fun h1 h2 => ?_, fun past => ?_⟩⟩
  · rw [commands]
    simp
  · rw [commands, if_pos short, if_pos ⟨hr, by omega⟩]
    rfl
  · rw [commands, if_neg (by omega), if_pos ⟨hr, h2⟩]
    rfl
  · rw [commands, if_neg (by omega), if_neg (by omega)]
    rfl

/-! ## The arbiters (R43, R62) -/

theorem grantD_of_busy {s : State} (h : s.dport.burst ≠ none) : grantD s = s := by
  unfold grantD
  split
  · rfl
  · exact absurd ‹_› h

theorem grantD_of_free {s : State} (h : s.dport.burst = none) : grantD s = match dPick s with
    | none => s
    | some .transit => s.setDport ⟨.transit, some .transit⟩
    | some .walker => s.setDport ⟨.walker, some (walkerBurst s.epochs.walker)⟩ := by
  rcases hp : dPick s with _ | _ | _ <;> simp only [grantD, h, hp]

theorem grantJ_of_busy {s : State} (h : s.journal.jport.burst ≠ none) : grantJ s = s := by
  unfold grantJ
  split
  · rfl
  · exact absurd ‹_› h

theorem grantJ_of_found {s : State} (h : s.journal.jport.burst = none) {c : JClient}
    (hc : (jOrder s.journal.jport.last).find? (jWaits s) = some c) :
    grantJ s = { s with journal.jport := ⟨c, some (jBurst s c)⟩ } := by
  rw [grantJ, h, hc]
  rfl

theorem grantJ_of_none {s : State} (h : s.journal.jport.burst = none)
    (hc : (jOrder s.journal.jport.last).find? (jWaits s) = none) : grantJ s = s := by
  rw [grantJ, h, hc]

/-- The ring order beginning after the last granted claimant (R62). -/
theorem jOrder_getElem? {last : JClient} {p : Fin 6}
    (h : ([.record, .marker, .header, .walker, .recovery, .readSlot] : List JClient)[p.val]? = some last) (m : Fin 6) :
    (jOrder last)[m.val]? =
      ([.record, .marker, .header, .walker, .recovery, .readSlot] : List JClient)[(p.val + 1 + m.val) % 6]? := by
  fin_cases p <;> cases h <;> fin_cases m <;> rfl

theorem find?_of_first {α : Type} {p : α → Bool} {l : List α} {n : Nat} {c : α} (hc : l[n]? = some c) (hp : p c = true)
    (before : ∀ m < n, ∀ x, l[m]? = some x → p x = false) : l.find? p = some c := by
  obtain ⟨hn, rfl⟩ := List.getElem?_eq_some_iff.mp hc
  refine List.find?_eq_some_iff_getElem.mpr ⟨hp, n, hn, rfl, fun m hm => ?_⟩
  rw [before m hm _ (List.getElem?_eq_getElem _)]
  rfl

/-- Settles O54: the D-port by `dPick`, the J-port by the ring order. -/
theorem arbiters : Obligations.Arbiters := by
  unfold Obligations.Arbiters
  dsimp only
  refine ⟨fun s => ⟨?_, grantD_of_busy, fun hb => ?_⟩, fun s => ⟨?_, grantJ_of_busy, fun hb => ⟨fun idle => ?_,
    fun p n k hp before hk c hc hw => ?_⟩⟩, fun s => ?_⟩
  · unfold grantD
    split
    · rfl
    · split <;> rfl
  · rw [grantD_of_free hb, dPick]
    refine ⟨fun ht hw => ?_, fun ht hw => ?_, fun ht hw => ?_, fun ht hw hl => ?_, fun ht hw hl => ?_⟩
    · rw [eq_false_of_ne_true ht, eq_false_of_ne_true hw]
    · rw [ht, eq_false_of_ne_true hw]
      rfl
    · rw [eq_false_of_ne_true ht, hw]
      rfl
    · rw [ht, hw, hl]
      rfl
    · rw [ht, hw, hl]
      rfl
  · unfold grantJ
    split
    · rfl
    · split <;> rfl
  · exact grantJ_of_none hb (List.find?_eq_none.mpr fun c _ => by simp [idle c])
  · have place : (jOrder s.journal.jport.last)[n.val]? = some c := by
      rw [jOrder_getElem? hp n, ← hk]
      exact hc
    have found := find?_of_first place hw fun m hm x hx => by
      have : m < 6 := Nat.lt_trans hm n.isLt
      rw [jOrder_getElem? hp ⟨m, this⟩] at hx
      exact before ⟨m, this⟩ hm x hx
    rw [grantJ_of_found hb found]
  · refine ⟨?_, ?_, ?_, ?_, ?_, ?_, ?_, ?_⟩
    · unfold transitWaits
      cases s.transit.access <;> simp
    · simp [walkerWaits]
    · unfold jWaits
      dsimp only
      cases s.transit.access <;> simp
    · unfold jWaits
      dsimp only
      cases s.journal.marker <;> simp
    · unfold jWaits
      dsimp only
      cases s.journal.header.inFlight <;> simp
    · simp [jWaits]
    · unfold jWaits
      dsimp only
      cases s.epochs.recovery <;> simp
    · unfold jWaits
      dsimp only
      cases s.journal.readSlot <;> simp

end Sys2Proof.Machine
end

section
/-! What the laws of chapters 2 to 8 read of the state, and the relation of two states over which they are kept. -/

namespace Sys2Proof.Machine

open Sys2Proof.Safety

/-! ## What each law reads -/

/-- What EngineLaw reads: stages, flags, claims of a start, geometry, and what the writers have under way. -/
def engineView (s : State) : (Engine × WalkerState × RecoveryStage × FormatStage) × (Bool × Bool × Nat × Bool) ×
    (Option Window × Option Geometry) × (MarkerWrite × Option HeaderKind × Bool) :=
  ((s.epochs.engine, s.epochs.walker.state, s.epochs.recovery, s.epochs.format),
    (s.epochs.startClaimed, s.transit.claims.start.isSome, s.epochs.pendingMark, s.epochs.ckptInFlight),
    (s.maps.window, s.journal.geometry),
    (s.journal.marker, s.journal.header.inFlight.map (·.kind), s.journal.header.next.isEmpty))

/-- What MapLaw reads. -/
def mapView (s : State) : CaptureMaps × Engine × FormatStage × RecoveryStage × Bool × Bool :=
  (s.maps, s.epochs.engine, s.epochs.format, s.epochs.recovery, s.transit.claims.cut.isSome, s.transit.access.isNone)

/-- What EpochLaw and the numbers left read. -/
def epochView (s : State) : (List Entry × Word × Engine × FormatStage × RecoveryStage) × Bool × Bool × Bool × WalkerState :=
  ((s.epochs.table, s.epochs.lastUsed, s.epochs.engine, s.epochs.format, s.epochs.recovery), s.transit.claims.cut.isSome,
    s.epochs.ckptInFlight, s.epochs.startClaimed, s.epochs.walker.state)

/-- The access with its timer and its place on the D-port. -/
def accessView (s : State) : Option Access × Bool × Bool :=
  (s.transit.access, s.transit.timer.isSome, decide (s.dport.burst = some .transit))

/-- What TransitLaw reads besides the access. -/
def captureView (s : State) : Engine × CaptureMaps × Word × Word × Bool × MarkerWrite :=
  (s.epochs.engine, s.maps, s.currentEpoch, s.epochs.latestBroken, s.epochs.breakRecording, s.journal.marker)

theorem engineLaw_of_view {s t : State} (law : EngineLaw s) (h : engineView t = engineView s) : EngineLaw t := by
  simp only [engineView, Prod.mk.injEq] at h
  obtain ⟨⟨he, hw, hr, hf⟩, ⟨hc, hs, hp, hk⟩, ⟨hwin, hg⟩, hm, hj, hn⟩ := h
  have inFlight : ∀ j, t.journal.header.inFlight = some j →
      ∃ i, s.journal.header.inFlight = some i ∧ i.kind = j.kind := by
    intro j eq
    rw [eq, Option.map_some, eq_comm, Option.map_eq_some_iff] at hj
    exact hj
  have free : s.journal.header.inFlight = none → t.journal.header.inFlight = none := by
    intro eq
    rwa [eq, Option.map_none, Option.map_eq_none_iff] at hj
  have empty : s.journal.header.next = [] → t.journal.header.next = [] := by
    intro eq
    rwa [eq, List.isEmpty_nil, List.isEmpty_iff] at hn
  exact
    { walk := by rw [he, hw]; exact law.walk
      recovery := by rw [he, hr]; exact law.recovery
      format := by rw [he, hf]; exact law.format
      copyA := by
        intro j eq kind
        obtain ⟨i, hi, same⟩ := inFlight j eq
        rw [hf]
        exact law.copyA i hi (same.trans kind)
      copyB := by
        intro j eq kind
        obtain ⟨i, hi, same⟩ := inFlight j eq
        rw [hf]
        exact law.copyB i hi (same.trans kind)
      formatMarker := by rw [he, hm, hf]; exact law.formatMarker
      claimed := by rw [hc, hs]; exact law.claimed
      claimedIn := by rw [hc, he]; exact law.claimedIn
      mark := by rw [hp, he, hc]; exact law.mark
      marks := by rw [hp]; exact law.marks
      checkpoint := by rw [hk, he, hc]; exact law.checkpoint
      window := by rw [hwin, hg]; exact law.window
      absent := by rw [he, hg]; exact law.absent
      present := by rw [he, hg]; exact law.present
      unwritten := by
        rw [he, hm, hr]
        intro h
        obtain ⟨marker, header⟩ := law.unwritten h
        exact ⟨marker, fun k => ⟨free (header k).1, empty (header k).2⟩⟩
      read := by rw [he, hg, hr]; exact law.read }

theorem mapLaw_of_view {s t : State} (law : MapLaw s) (h : mapView t = mapView s) : MapLaw t := by
  simp only [mapView, Prod.mk.injEq] at h
  obtain ⟨hm, he, hf, hr, hc, ha⟩ := h
  have access : t.transit.access ≠ none → s.transit.access ≠ none := by
    rw [ne_eq, ← Option.isNone_iff_eq_none, ha, Option.isNone_iff_eq_none]
    exact id
  exact
    { one := by rw [hm]; exact law.one
      active := by rw [hm, he]; exact law.active
      running := by rw [hm]; exact law.running
      queued := by rw [hm]; exact law.queued
      sweeping := by rw [hm]; exact law.sweeping
      formatting := by rw [hm, hf]; exact law.formatting
      scanning := by rw [hm, hr]; exact law.scanning
      loading := by rw [hm, hr]; exact law.loading
      cutIn := by
        rw [hc, he]
        intro h
        obtain ⟨h1, h2, h3⟩ := law.cutIn h
        exact ⟨h1, h2, fun k => h3 (access k)⟩
      cutClean := by rw [hc, he, hm]; exact law.cutClean }

/-- A number is left for the cut that waits with its checkpoint in flight, and for the rollback claimed or under way
(R89, R117). -/
structure NumbersLeft (s : State) : Prop where
  cut : s.transit.claims.cut.isSome = true → s.epochs.ckptInFlight = true → s.epochs.lastUsed.toNat < 4294967295
  walk : s.epochs.startClaimed = true ∨ s.epochs.walker.state ∈ [.waitStart, .read, .writeBack] →
    s.epochs.lastUsed.toNat < 4294967295

/-- The epoch table is lawful and the numbers are not used up. -/
def EpochsGoOn (s : State) : Prop := EpochLaw s ∧ NumbersLeft s

theorem EpochsGoOn.of_view {s t : State} (law : EpochsGoOn s) (h : epochView t = epochView s) : EpochsGoOn t := by
  simp only [epochView, Prod.mk.injEq] at h
  obtain ⟨⟨ht, hl, he, hf, hr⟩, hc, hk, hs, hw⟩ := h
  obtain ⟨law, left⟩ := law
  exact
    ⟨{  room := by rw [ht]; exact law.room
        rising := by rw [ht]; exact law.rising
        numbered := by rw [ht, hl]; exact law.numbered
        cut := by rw [hc, he, ht]; exact law.cut
        current := by rw [he, ht]; exact law.current
        formatted := by rw [hf, ht]; exact law.formatted
        rebuilt := by rw [hr, ht]; exact law.rebuilt
        scanned := by rw [hr]; exact law.scanned },
     { cut := by rw [hc, hk, hl]; exact left.cut
       walk := by rw [hs, hw, hl]; exact left.walk }⟩

/-! ## What the engine state says of the stages and flags -/

theorem walker_stopped {s : State} (law : EngineLaw s) (h : s.epochs.engine ≠ .rollingBack) :
    s.epochs.walker.state = .stopped := by
  by_contra k
  exact h (law.walk.2 k)

theorem recovery_idle {s : State} (law : EngineLaw s) (h : s.epochs.engine ≠ .recovering) :
    s.epochs.recovery = .idle := by
  by_contra k
  exact h (law.recovery.2 k)

theorem format_idle {s : State} (law : EngineLaw s) (h : s.epochs.engine ≠ .formatting) :
    s.epochs.format = .idle := by
  by_contra k
  exact h (law.format.2 k)

theorem no_mark_pending {s : State} (law : EngineLaw s)
    (h : s.epochs.engine ≠ .journaling ∨ s.epochs.startClaimed = true) : s.epochs.pendingMark = 0 := by
  by_contra k
  obtain ⟨h1, h2⟩ := law.mark (Nat.pos_of_ne_zero k)
  exact h.elim (fun h => h h1) (fun h => by rw [h2] at h; cases h)

theorem no_ckpt_in_flight {s : State} (law : EngineLaw s)
    (h : s.epochs.engine ≠ .journaling ∨ s.epochs.startClaimed = true) : s.epochs.ckptInFlight = false := by
  by_contra k
  obtain ⟨h1, h2⟩ := law.checkpoint (Bool.eq_true_of_not_eq_false k)
  exact h.elim (fun h => h h1) (fun h => by rw [h2] at h; cases h)

theorem no_start_claimed {s : State} (law : EngineLaw s) (h : s.epochs.engine ∉ [.journaling, .held, .faulted]) :
    s.epochs.startClaimed = false := by
  by_contra k
  exact h (law.claimedIn (Bool.eq_true_of_not_eq_false k))

/-! ## TransitLaw under changes that leave the access alone -/

/-- The access in progress keeps its law where no captured granule is lost, the current epoch and its break stand as
they stood, and its MARKER is written if it was. -/
theorem transitLaw_of_kept {s t : State} (law : TransitLaw s) (h : accessView t = accessView s) (he : t.epochs.engine = s.epochs.engine)
    (hb : ∀ a, bitSet s a = true → bitSet t a = true) (hc : t.currentEpoch = s.currentEpoch)
    (hl : t.epochs.latestBroken = s.epochs.latestBroken)
    (hm : markerComplete s s.currentEpoch = true → markerComplete t s.currentEpoch = true)
    (hr : s.epochs.breakRecording = false → t.epochs.breakRecording = false) : TransitLaw t := by
  simp only [accessView, Prod.mk.injEq, decide_eq_decide] at h
  obtain ⟨ha, ht, hp⟩ := h
  have hbr : currentBroken t = currentBroken s := by unfold currentBroken; rw [hc, hl]
  refine { access := ?_, idle := ?_, port := ?_ }
  · intro a eq
    rw [ha] at eq
    have law := law.access a eq
    exact
      { beats := law.beats
        stage := law.stage
        action := law.action
        governed := by rw [he]; exact law.governed
        capturing := by rw [he]; exact law.capturing
        slot := law.slot
        waiting := fun h1 h2 => hb _ (law.waiting h1 h2)
        broken := by rw [hbr]; exact law.broken
        timer := by rw [ht]; exact law.timer
        writeAhead := by
          rw [he, hbr, hc]
          intro h1 h2 h3 h4 h5
          rcases law.writeAhead h1 h2 h3 h4 h5 with ⟨set, complete⟩ | ⟨broken, recorded⟩
          · exact .inl ⟨hb _ set, hm complete⟩
          · exact .inr ⟨broken, hr recorded⟩ }
  · intro eq
    rw [ha] at eq
    rw [law.idle eq, Option.isSome_none, Option.isSome_eq_false_iff, Option.isNone_iff_eq_none] at ht
    exact ht
  · rw [hp, ha]
    exact law.port

theorem transitLaw_of_view {s t : State} (law : TransitLaw s) (h : accessView t = accessView s)
    (k : captureView t = captureView s) : TransitLaw t := by
  simp only [captureView, Prod.mk.injEq] at k
  obtain ⟨he, hm, hc, hl, hr, hj⟩ := k
  refine transitLaw_of_kept law h he (fun a set => ?_) hc hl (fun complete => ?_) (fun recorded => hr.trans recorded)
  · unfold bitSet at set ⊢
    rwa [hm]
  · unfold markerComplete at complete ⊢
    rwa [hj]

/-- In an engine state that refuses captures every access is past its capture tests, so it keeps its law under any
change of the rest of the state. -/
theorem transitLaw_of_refusing {s t : State} (law : TransitLaw s) (h : accessView t = accessView s)
    (he : s.epochs.engine ∉ [.offline, .journaling]) : TransitLaw t := by
  simp only [accessView, Prod.mk.injEq, decide_eq_decide] at h
  obtain ⟨ha, ht, hp⟩ := h
  simp only [List.mem_cons, List.not_mem_nil, or_false, not_or] at he
  refine { access := ?_, idle := ?_, port := ?_ }
  · intro a eq
    rw [ha] at eq
    have law := law.access a eq
    have free : ∀ {P : Prop}, a.result.action.governed = true → a.cut = .no → P := by
      intro P h1 h2
      obtain ⟨h3, h4⟩ := law.governed h1 h2
      rw [← h3] at h4
      exact (h4.elim he.1 he.2).elim
    have forward : a.stage = .forward := by
      by_contra k
      exact he.2 (law.capturing k).2.2.2
    exact
      { beats := law.beats
        stage := law.stage
        action := law.action
        governed := fun h1 h2 => free h1 h2
        capturing := fun k => absurd forward k
        slot := law.slot
        waiting := fun k => by rw [forward] at k; cases k
        broken := fun k => by rw [forward] at k; cases k
        timer := by rw [ht]; exact law.timer
        writeAhead := fun _ _ h1 h2 _ => free h1 h2 }
  · intro eq
    rw [ha] at eq
    rw [law.idle eq, Option.isSome_none, Option.isSome_eq_false_iff, Option.isNone_iff_eq_none] at ht
    exact ht
  · rw [hp, ha]
    exact law.port

/-- No access, no timer running, no burst of an access on the D-port. -/
structure Idle (s : State) : Prop where
  access : s.transit.access = none
  timer : s.transit.timer = none
  port : s.dport.burst ≠ some .transit

theorem Idle.transitLaw {s : State} (h : Idle s) : TransitLaw s where
  access a eq := by rw [h.access] at eq; cases eq
  idle _ := h.timer
  port eq := absurd eq h.port

theorem idle_of_transitLaw {s : State} (law : TransitLaw s) (h : s.transit.access = none) : Idle s where
  access := h
  timer := law.idle h
  port eq := by
    obtain ⟨a, ha, _⟩ := law.port eq
    rw [h] at ha
    cases ha

theorem Idle.of_view {s t : State} (idle : Idle s) (h : accessView t = accessView s) : Idle t := by
  simp only [accessView, Prod.mk.injEq, decide_eq_decide] at h
  obtain ⟨ha, ht, hp⟩ := h
  refine ⟨ha.trans idle.access, ?_, fun k => idle.port (hp.1 k)⟩
  rwa [idle.timer, Option.isSome_none, Option.isSome_eq_false_iff, Option.isNone_iff_eq_none] at ht

/-- Without an access in progress the law of the upstream side holds whatever else changes. -/
theorem transitLaw_of_no_access {s t : State} (law : TransitLaw s) (h : accessView t = accessView s)
    (ha : s.transit.access = none) : TransitLaw t :=
  ((idle_of_transitLaw law ha).of_view h).transitLaw

/-! ## The laws kept from one state to the next -/

/-- The laws of the engine, the maps and the epoch table are kept. -/
structure TablesKept (s t : State) : Prop where
  engine : EngineLaw s → EngineLaw t
  maps : EngineLaw s → MapLaw s → MapLaw t
  epochs : EngineLaw s → MapLaw s → EpochsGoOn s → EpochsGoOn t

/-- These and the law of the upstream side are kept. -/
structure LawsKept (s t : State) : Prop extends TablesKept s t where
  transit : EngineLaw s → MapLaw s → EpochsGoOn s → TransitLaw s → TransitLaw t

theorem TablesKept.trans {s t u : State} (h : TablesKept s t) (k : TablesKept t u) : TablesKept s u where
  engine e := k.engine (h.engine e)
  maps e m := k.maps (h.engine e) (h.maps e m)
  epochs e m n := k.epochs (h.engine e) (h.maps e m) (h.epochs e m n)

theorem LawsKept.refl (s : State) : LawsKept s s where
  engine e := e
  maps _ m := m
  epochs _ _ n := n
  transit _ _ _ a := a

theorem LawsKept.trans {s t u : State} (h : LawsKept s t) (k : LawsKept t u) : LawsKept s u where
  toTablesKept := h.toTablesKept.trans k.toTablesKept
  transit e m n a := k.transit (h.engine e) (h.maps e m) (h.epochs e m n) (h.transit e m n a)

theorem TablesKept.of_views {s t : State} (he : engineView t = engineView s) (hm : mapView t = mapView s)
    (hn : epochView t = epochView s) : TablesKept s t where
  engine e := engineLaw_of_view e he
  maps _ m := mapLaw_of_view m hm
  epochs _ _ n := n.of_view hn

/-- A change of the access alone: where none was in progress an access begins only with no cut waiting. -/
theorem TablesKept.of_access {s t : State} (he : engineView t = engineView s)
    (hm : (t.maps, t.transit.claims.cut) = (s.maps, s.transit.claims.cut)) (hn : epochView t = epochView s)
    (ha : t.transit.access = none ∨ s.transit.access ≠ none ∨ s.transit.claims.cut = none) : TablesKept s t where
  engine e := engineLaw_of_view e he
  maps _ law := by
    simp only [engineView, Prod.mk.injEq] at he hm
    obtain ⟨⟨he, -, hr, hf⟩, -⟩ := he
    obtain ⟨hm, hc⟩ := hm
    exact
      { one := by rw [hm]; exact law.one
        active := by rw [hm, he]; exact law.active
        running := by rw [hm]; exact law.running
        queued := by rw [hm]; exact law.queued
        sweeping := by rw [hm]; exact law.sweeping
        formatting := by rw [hm, hf]; exact law.formatting
        scanning := by rw [hm, hr]; exact law.scanning
        loading := by rw [hm, hr]; exact law.loading
        cutIn := by
          rw [hc, he]
          intro h
          obtain ⟨h1, h2, h3⟩ := law.cutIn h
          refine ⟨h1, h2, fun k => ?_⟩
          rcases ha with ha | ha | ha
          · exact absurd ha k
          · exact h3 ha
          · rw [ha] at h; cases h
        cutClean := by rw [hc, he, hm]; exact law.cutClean }
  epochs _ _ n := n.of_view hn

/-- The engine's law may be used to show that the laws are kept. -/
theorem LawsKept.of_law {s t : State} (h : EngineLaw s → LawsKept s t) : LawsKept s t where
  engine e := (h e).engine e
  maps e m := (h e).maps e m
  epochs e m n := (h e).epochs e m n
  transit e m n a := (h e).transit e m n a

/-- A change that no law reads. -/
abbrev Unread (s t : State) : Prop :=
  (engineView t, mapView t, epochView t, accessView t, captureView t) =
    (engineView s, mapView s, epochView s, accessView s, captureView s)

theorem Unread.kept {s t : State} (h : Unread s t) : LawsKept s t := by
  simp only [Unread, Prod.mk.injEq] at h
  obtain ⟨engine, maps, epochs, access, capture⟩ := h
  exact
    { engine := fun e => engineLaw_of_view e engine
      maps := fun _ m => mapLaw_of_view m maps
      epochs := fun _ _ n => n.of_view epochs
      transit := fun _ _ _ a => transitLaw_of_view a access capture }

theorem Unread.of_views {s t : State} (he : engineView t = engineView s) (hm : mapView t = mapView s)
    (hn : epochView t = epochView s) (ha : accessView t = accessView s) (hc : captureView t = captureView s) :
    Unread s t := by
  rw [Unread, he, hm, hn, ha, hc]

theorem Unread.trans {s t u : State} (h : Unread s t) (k : Unread t u) : Unread s u := Eq.trans k h

end Sys2Proof.Machine
end

section
/-! The operations whose effect no law reads, and the arbiters (R43, R62). -/

namespace Sys2Proof.Machine

open Sys2Proof.Safety

/-! ## Operations whose effect no law reads -/

theorem post_unread (n : Notice) (s : State) : Unread s (post n s) := by
  rw [post_eq]
  exact rfl

theorem answer_unread (st : Status) (data : List Byte) (s : State) : Unread s (answer st data s) := by
  rw [answer_eq]
  exact rfl

theorem setRegions_unread (s : State) (x : RegionMatcher) : Unread s (s.setRegions x) := rfl

theorem setLink_unread (s : State) (x : Link) : Unread s (s.setLink x) := rfl

theorem setNotices_unread (s : State) (x : NoticeUnit) : Unread s (s.setNotices x) := rfl

theorem setDmem_unread (s : State) (x : Memory) : Unread s (s.setDmem x) := rfl

theorem setSrstn_unread (s : State) (x : Bool) : Unread s (s.setSrstn x) := rfl

theorem setPorn_unread (s : State) (x : Bool) : Unread s (s.setPorn x) := rfl

theorem setPending_unread (s : State) (x : List Instr) : Unread s (s.setPending x) := rfl

theorem nextFresh_unread (s : State) : Unread s (nextFresh s) := rfl

theorem answerBeat_unread (b : UBeat) (s : State) : Unread s (answerBeat b s) := rfl

theorem returnSlot_unread (s : State) : Unread s (returnSlot s) := rfl

theorem allocate_unread (s : State) : Unread s (allocate s) := by
  rw [allocate_eq, lowWater_eq]
  exact rfl

theorem freeJ_unread (s : State) : Unread s (freeJ s) := rfl

theorem landJ_unread (b : JBurst) (n : Nat) (s : State) : Unread s (landJ b n s) := by
  unfold landJ
  split
  · exact rfl
  · exact rfl

theorem endJ_unread (b : JBurst) (s : State) : Unread s (endJ b s) := (freeJ_unread s).trans (landJ_unread _ _ _)

theorem failJ_unread (b : JBurst) (beats : Fin 4) (s : State) : Unread s (failJ b beats s) :=
  (freeJ_unread s).trans (landJ_unread _ _ _)

theorem disownJ_unread (c : JClient) (s : State) : Unread s (disownJ c s) := by
  rw [disownJ_eq]
  exact rfl

theorem endReadSlot_unread (s : State) : Unread s (endReadSlot s) := rfl

theorem takeOldBurst_unread (a : Access) (s : State) : Unread s (takeOldBurst a s) := rfl

theorem installPolicy_unread (p : PolicyParams) (s : State) : Unread s (installPolicy p s) := rfl

theorem carryBeat_unread (a : Access) (ube : BitVec 4) (data : Word) (s : State) :
    Unread s (carryBeat a ube data s) := by
  unfold carryBeat
  split
  · exact rfl
  · exact rfl

theorem grantJ_unread (s : State) : Unread s (grantJ s) := by
  unfold grantJ
  split
  · exact rfl
  · split
    · exact rfl
    · exact rfl

theorem takeCommit_unread (s : State) : Unread s (takeCommit s) := by
  unfold takeCommit
  split
  · have dropped : Unread s (setClaims { s.transit.claims with commit := false } s) := rfl
    dsimp only
    split
    all_goals exact dropped.trans (answer_unread _ _ _)
  · exact rfl

/-! ## The arbiters (R43, R62) -/

theorem access_of_transitWaits {s : State} (h : transitWaits s = true) :
    ∃ a : Access, s.transit.access = some a ∧ (a.stage = .forward ∨ a.stage = .readOld) := by
  unfold transitWaits at h
  cases ha : s.transit.access with
  | none => rw [ha] at h; cases h
  | some a =>
    rw [ha] at h
    exact ⟨a, rfl, by simpa using h⟩

/-- The arbiters leave everything but the two ports. -/
theorem grantD_eq (s : State) : ∃ p, grantD s = s.setDport p := by
  unfold grantD
  split
  · exact ⟨s.dport, rfl⟩
  · split
    · exact ⟨s.dport, rfl⟩
    · exact ⟨_, rfl⟩
    · exact ⟨_, rfl⟩

theorem access_of_grantD {s : State} (h : (grantD s).dport.burst = some .transit) (hs : s.dport.burst ≠ some .transit) :
    ∃ a : Access, s.transit.access = some a ∧ (a.stage = .forward ∨ a.stage = .readOld) := by
  refine access_of_transitWaits ?_
  unfold grantD at h
  split at h
  · exact absurd h hs
  · split at h
    · exact absurd h hs
    · rename_i pick
      unfold dPick at pick
      cases waits : transitWaits s with
      | true => rfl
      | false => rw [waits] at pick; cases k : walkerWaits s <;> rw [k] at pick <;> cases pick
    · cases h

/-- A D-port granted to the Transit Controller carries the burst of an access that has one to make. -/
theorem grantD_kept (s : State) : LawsKept s (grantD s) := by
  have owner : TransitLaw s → (grantD s).dport.burst = some .transit →
      ∃ a : Access, s.transit.access = some a ∧ (a.stage = .forward ∨ a.stage = .readOld) := by
    intro law h
    by_cases hs : s.dport.burst = some .transit
    · exact law.port hs
    · exact access_of_grantD h hs
  obtain ⟨p, eq⟩ := grantD_eq s
  rw [eq] at owner ⊢
  exact
    { toTablesKept := .of_views rfl rfl rfl
      transit := fun _ _ _ law =>
        { access := fun a h => { law.access a h with }
          idle := law.idle
          port := owner law } }

theorem arbitrate_kept (s : State) : LawsKept s (arbitrate s) := (grantD_kept s).trans (grantJ_unread _).kept

theorem arbitrate_mapView (s : State) : mapView (arbitrate s) = mapView s := by
  have jport := grantJ_unread (grantD s)
  simp only [Unread, Prod.mk.injEq] at jport
  obtain ⟨p, eq⟩ := grantD_eq s
  refine jport.2.1.trans ?_
  rw [eq]
  rfl

end Sys2Proof.Machine
end

section
/-! The capture maps: a map is SWEEPING exactly while a sweep of it runs or waits (R48 to R57). -/

namespace Sys2Proof.Machine

open Sys2Proof.Safety

/-- The part of MapLaw that speaks of the maps alone. -/
structure SweepsLawful (m : CaptureMaps) : Prop where
  running : ∀ r : Sweep, m.running = some r → (m.get r.map).state = .sweeping
  queued : ∀ q : MapId, m.queued = some q → (m.get q).state = .sweeping ∧ ∃ r : Sweep, m.running = some r ∧ r.map ≠ q
  sweeping : ∀ i : MapId, (m.get i).state = .sweeping → m.queued = some i ∨ ∃ r : Sweep, m.running = some r ∧ r.map = i

theorem sweepsLawful_of_mapLaw {s : State} (law : MapLaw s) : SweepsLawful s.maps :=
  ⟨law.running, law.queued, law.sweeping⟩

theorem state_of_get {m : CaptureMaps} {i : MapId} {x : MapState} (h : (m.get i).state = x) :
    m.m0.state = x ∨ m.m1.state = x := by
  cases i with
  | m0 => exact .inl h
  | m1 => exact .inr h

theorem not_both_of_get {m : CaptureMaps} {i : MapId} {x : MapState} (h : (m.get i).state ≠ x) :
    ¬ (m.m0.state = x ∧ m.m1.state = x) := by
  cases i with
  | m0 => exact fun k => h k.1
  | m1 => exact fun k => h k.2

theorem get_of_find {m : CaptureMaps} {i : MapId} {x : MapState} (h : m.find x = some i) : (m.get i).state = x := by
  unfold CaptureMaps.find at h
  split at h
  next k => cases h; exact k
  next =>
    split at h
    next k => cases h; exact k
    next => cases h

theorem not_both_of_find_none {m : CaptureMaps} {x : MapState} (h : m.find x = none) :
    ¬ (m.m0.state = x ∧ m.m1.state = x) := by
  intro k
  exact (find_ne_none m x).2 (.inl k.1) h

theorem SweepsLawful.of_states {m n : CaptureMaps} (law : SweepsLawful m)
    (hs : ∀ j, (n.get j).state = .sweeping ↔ (m.get j).state = .sweeping) (hr : n.running = m.running)
    (hq : n.queued = m.queued) : SweepsLawful n where
  running r h := (hs _).2 (law.running r (hr ▸ h))
  queued q h := by
    rw [hs, hr]
    exact law.queued q (hq ▸ h)
  sweeping i h := by
    rw [hr, hq]
    exact law.sweeping i ((hs i).1 h)

theorem SweepsLawful.setState {m : CaptureMaps} (law : SweepsLawful m) {i : MapId} {x : MapState}
    (hi : (m.get i).state ≠ .sweeping) (hx : x ≠ .sweeping) : SweepsLawful (m.setState i x) := by
  refine law.of_states (fun j => ?_) (put_running _ _ _) (put_queued _ _ _)
  rw [get_setState]
  split
  next h => subst h; simp [hi, hx]
  next => exact Iff.rfl

theorem SweepsLawful.no_queue {m : CaptureMaps} (law : SweepsLawful m) (h : m.running = none) : m.queued = none := by
  cases hq : m.queued with
  | none => rfl
  | some q =>
    obtain ⟨-, r, hr, -⟩ := law.queued q hq
    rw [h] at hr
    cases hr

/-- With no map SWEEPING no sweep runs or waits. -/
theorem SweepsLawful.idle {m : CaptureMaps} (law : SweepsLawful m) (h0 : m.m0.state ≠ .sweeping)
    (h1 : m.m1.state ≠ .sweeping) : m.running = none ∧ m.queued = none := by
  have none_runs : m.running = none := by
    cases hr : m.running with
    | none => rfl
    | some r => exact ((state_of_get (law.running r hr)).elim h0 h1).elim
  exact ⟨none_runs, law.no_queue none_runs⟩

theorem setState_window (m : CaptureMaps) (i : MapId) (x : MapState) : (m.setState i x).window = m.window :=
  put_window m i _

theorem other_map {i j k : MapId} (hij : j ≠ i) (hik : k ≠ i) : k = j := by
  cases i <;> cases j <;> cases k <;> simp at *

theorem requestSweep_of_merged {m : CaptureMaps} {i : MapId}
    (h : (∃ r : Sweep, m.running = some r ∧ r.map = i) ∨ m.queued = some i) :
    requestSweep i m = m.setState i .sweeping := by
  refine if_pos (h.imp_left ?_)
  rintro ⟨r, hr, rfl⟩
  simp [hr]

/-- A sweep requested under a window runs, waits, or is merged with the sweep of the same map. -/
theorem SweepsLawful.requestSweep {m : CaptureMaps} (law : SweepsLawful m) {w : Window} (hw : m.window = some w)
    (i : MapId) : SweepsLawful (requestSweep i m) := by
  have get (j : MapId) := get_requestSweep (by simp [hw] : m.window ≠ none) i j
  by_cases merged : (∃ r : Sweep, m.running = some r ∧ r.map = i) ∨ m.queued = some i
  · have swept : (m.get i).state = .sweeping := by
      rcases merged with ⟨r, hr, rfl⟩ | hq
      · exact law.running r hr
      · exact (law.queued i hq).1
    rw [requestSweep_of_merged merged]
    refine law.of_states (fun j => ?_) (put_running _ _ _) (put_queued _ _ _)
    rw [get_setState]
    split
    next h => subst h; simp [swept]
    next => exact Iff.rfl
  · have other : ∀ j, (m.get j).state = .sweeping → j ≠ i → ∃ r : Sweep, m.running = some r ∧ r.map = j := by
      intro j hj hne
      refine (law.sweeping j hj).resolve_left fun hq => merged (.inl ?_)
      obtain ⟨-, r, hr, hrj⟩ := law.queued j hq
      exact ⟨r, hr, (other_map hne.symm hrj).symm ▸ rfl⟩
    cases hr : m.running with
    | none =>
      have alone : ∀ j, (m.get j).state = .sweeping → j = i := by
        intro j hj
        by_contra hne
        obtain ⟨r, k, -⟩ := other j hj hne
        rw [hr] at k
        cases k
      have eq := requestSweep_of_free (i := i) hw hr (law.no_queue hr)
      have running : (Machine.requestSweep i m).running = some ⟨i, w.bits⟩ := by rw [eq]
      have queued : (Machine.requestSweep i m).queued = none := by
        rw [eq]
        exact (put_queued _ _ _).trans (law.no_queue hr)
      refine ⟨fun r h => ?_, fun q h => ?_, fun j h => .inr ⟨_, running, ?_⟩⟩
      · rw [running] at h
        cases h
        rw [get, if_pos rfl]
      · rw [queued] at h
        cases h
      · rw [get] at h
        split at h
        next hj => exact hj.symm
        next => exact (alone j h).symm
    | some r =>
      have hri : r.map ≠ i := fun k => merged (.inl ⟨r, hr, k⟩)
      have empty : m.queued = none := by
        cases hq : m.queued with
        | none => rfl
        | some q =>
          obtain ⟨-, p, hp, hpq⟩ := law.queued q hq
          rw [hr] at hp
          cases hp
          exact (merged (.inr (hq.trans (congrArg some (other_map hri.symm hpq.symm))))).elim
      have eq := requestSweep_of_busy (i := i) hw hr hri empty
      have running : (Machine.requestSweep i m).running = some r := by
        rw [eq]
        exact (put_running _ _ _).trans hr
      have queued : (Machine.requestSweep i m).queued = some i := by rw [eq]
      refine ⟨fun p h => ?_, fun q h => ?_, fun j h => ?_⟩
      · rw [running] at h
        cases h
        rw [get, if_neg hri]
        exact law.running r hr
      · rw [queued] at h
        cases h
        exact ⟨by rw [get, if_pos rfl], r, running, hri⟩
      · rw [get] at h
        split at h
        next hj => exact .inl (hj ▸ queued)
        next hj =>
          obtain ⟨p, hp, hpj⟩ := other j h hj
          exact .inr ⟨p, running.trans (hr.symm.trans hp), hpj⟩

/-- The end of the running sweep starts the one that waits (R54). -/
theorem SweepsLawful.endSweep {m : CaptureMaps} (law : SweepsLawful m) {r : Sweep} (hr : m.running = some r) :
    SweepsLawful (endSweep m) := by
  rw [endSweep_eq hr]
  have get : ∀ j, (CaptureMaps.get { m.put r.map (sweptMap r m) with
      running := m.queued.map fun q => ⟨q, m.bitsInUse⟩, queued := none } j).state = .sweeping ↔
      j ≠ r.map ∧ (m.get j).state = .sweeping := by
    intro j
    by_cases hj : j = r.map
    · subst hj
      have : (CaptureMaps.get { m.put r.map (sweptMap r m) with
        running := m.queued.map fun q => ⟨q, m.bitsInUse⟩, queued := none } r.map) = sweptMap r m := get_put_same m _ _
      rw [this]
      simp [sweptMap]
    · have : (CaptureMaps.get { m.put r.map (sweptMap r m) with
        running := m.queued.map fun q => ⟨q, m.bitsInUse⟩, queued := none } j) = m.get j := get_put_other m hj _
      rw [this]
      simp [hj]
  refine ⟨fun p h => ?_, fun q h => (by cases h), fun j h => .inr ?_⟩
  · obtain ⟨q, hq, rfl⟩ := Option.map_eq_some_iff.1 h
    obtain ⟨swept, p, hp, hpq⟩ := law.queued q hq
    rw [hr] at hp
    cases hp
    exact (get q).2 ⟨hpq.symm, swept⟩
  · obtain ⟨hj, swept⟩ := (get j).1 h
    rcases law.sweeping j swept with hq | ⟨p, hp, hpj⟩
    · exact ⟨_, by rw [hq]; rfl, rfl⟩
    · rw [hr] at hp
      cases hp
      exact (hj hpj.symm).elim

/-- A new window has both maps swept (R56, R57). -/
theorem SweepsLawful.installWindow {m : CaptureMaps} (law : SweepsLawful m) (w : Window) :
    SweepsLawful (installWindow w m) := by
  have windowed : SweepsLawful { m with window := some w } :=
    law.of_states (fun j => by cases j <;> exact Iff.rfl) rfl rfl
  exact (windowed.requestSweep rfl .m0).requestSweep (requestSweep_window _ _) .m1

/-! ## The swap (R52, R55) -/

/-- The maps with a CLEAN one, if there is one, raised to ACTIVE. -/
def cleanRaised (m : CaptureMaps) : CaptureMaps :=
  match m.find .clean with
  | some i => m.setState i .active
  | none => m

theorem swapMaps_of_active {m : CaptureMaps} {i : MapId} (h : m.find .active = some i) :
    swapMaps m = requestSweep i (cleanRaised m) := by
  cases hc : m.find .clean <;> simp [swapMaps, cleanRaised, h, hc]

theorem cleanRaised_window (m : CaptureMaps) : (cleanRaised m).window = m.window := by
  unfold cleanRaised
  split
  · exact setState_window _ _ _
  · rfl

theorem SweepsLawful.cleanRaised {m : CaptureMaps} (law : SweepsLawful m) : SweepsLawful (cleanRaised m) := by
  unfold Machine.cleanRaised
  split
  next i h => exact law.setState (by rw [get_of_find h]; decide) (by decide)
  next => exact law

theorem SweepsLawful.swapMaps {m : CaptureMaps} (law : SweepsLawful m) {w : Window} (hw : m.window = some w) {i : MapId}
    (hi : m.find .active = some i) : SweepsLawful (swapMaps m) := by
  rw [swapMaps_of_active hi]
  exact law.cleanRaised.requestSweep ((cleanRaised_window m).trans hw) i

/-- After a swap the map that was ACTIVE is SWEEPING. -/
theorem get_swapMaps_active {m : CaptureMaps} (hw : m.window ≠ none) {i : MapId} (hi : m.find .active = some i) :
    ((swapMaps m).get i).state = .sweeping := by
  rw [swapMaps_of_active hi, get_requestSweep (by rwa [cleanRaised_window]), if_pos rfl]

/-- After a swap the map that was CLEAN is ACTIVE. -/
theorem get_swapMaps_clean {m : CaptureMaps} (hw : m.window ≠ none) {i j : MapId} (hi : m.find .active = some i)
    (hj : m.find .clean = some j) : ((swapMaps m).get j).state = .active := by
  have hij : j ≠ i := by
    rintro rfl
    have := get_of_find hi
    rw [get_of_find hj] at this
    cases this
  rw [swapMaps_of_active hi, get_requestSweep (by rwa [cleanRaised_window]), if_neg hij, Machine.cleanRaised, hj,
    get_setState, if_pos rfl]

theorem swapMaps_window {m : CaptureMaps} {i : MapId} (hi : m.find .active = some i) : (swapMaps m).window = m.window := by
  rw [swapMaps_of_active hi, requestSweep_window, cleanRaised_window]

end Sys2Proof.Machine
end

section
/-! The header writer's requests and the claims of the access boundary under the laws (R39, R76 to R78, R90, R91, R119,
R153). -/

namespace Sys2Proof.Machine

open Sys2Proof.Safety

/-! ## The end of RECOVER (R153) -/

theorem recoveryMaps_window (r : RecoveryStage) (m : CaptureMaps) : (recoveryMaps r m).window = none := by
  cases r <;> rfl

/-- The maps of a failed RECOVER: as they stood, or with M0 made DIRTY while no sweep is under way. -/
theorem recoveryMaps_lawful {s : State} (law : MapLaw s) : SweepsLawful (recoveryMaps s.epochs.recovery s.maps) ∧
    ¬ ((recoveryMaps s.epochs.recovery s.maps).m0.state = .active ∧
      (recoveryMaps s.epochs.recovery s.maps).m1.state = .active) := by
  have sweeps := sweepsLawful_of_mapLaw law
  have unwindowed {m : CaptureMaps} (h : SweepsLawful m) : SweepsLawful { m with window := none } :=
    h.of_states (fun j => by cases j <;> exact Iff.rfl) rfl rfl
  have loaded (h : s.maps.m0.state = .active ∧ s.maps.m1.state = .clean) :
      SweepsLawful { s.maps.setState .m0 .dirty with window := none } ∧ ¬ (MapState.dirty = .active ∧
        s.maps.m1.state = .active) :=
    ⟨unwindowed (sweeps.setState (i := .m0) (by show s.maps.m0.state ≠ _; rw [h.1]; decide) (by decide)),
      fun k => by cases k.1⟩
  cases hr : s.epochs.recovery with
  | idle => exact ⟨unwindowed sweeps, law.one⟩
  | copies => exact ⟨unwindowed sweeps, law.one⟩
  | sweep => exact ⟨unwindowed sweeps, law.one⟩
  | scan => exact ⟨unwindowed sweeps, law.one⟩
  | load h sc ld buf => exact loaded (law.loading h sc ld buf (.inl hr))
  | header h sc => exact loaded (law.loading h sc ⟨0, 0, 0⟩ [] (.inr hr))

/-- RECOVER that fails leaves the part OFFLINE without a journal. -/
theorem recoverFail_kept {s : State} (he : s.epochs.engine = .recovering) (o : RecoverOutcome) :
    LawsKept s (recoverFail o s) := by
  refine LawsKept.trans ?_ (post_unread _ _).kept
  exact
    { engine := fun law =>
        { law with
          walk := by simp [walker_stopped law, he]
          recovery := by simp
          format := by simp [format_idle law, he]
          copyA := fun j h => by cases h
          copyB := fun j h => by cases h
          formatMarker := fun j h => by cases h
          claimedIn := by simp [no_start_claimed law, he]
          mark := by simp [no_mark_pending law, he]
          checkpoint := by simp [no_ckpt_in_flight law, he]
          window := recoveryMaps_window _ _
          absent := fun _ => rfl
          present := by simp
          unwritten := fun _ => ⟨(law.unwritten (by simp [he])).1, fun _ => ⟨rfl, rfl⟩⟩
          read := by simp }
      maps := fun law m =>
        have ⟨sweeps, one⟩ := recoveryMaps_lawful m
        { one := one
          active := by simp
          running := sweeps.running
          queued := sweeps.queued
          sweeping := sweeps.sweeping
          formatting := by simp [format_idle law, he]
          scanning := by simp
          loading := by simp
          cutIn := fun h => absurd he (m.cutIn h).2.1
          cutClean := by simp }
      epochs := fun law m n =>
        ⟨{  room := by simp
            rising := by simp
            numbered := by simp
            cut := by simp
            current := by simp
            formatted := by simp [format_idle law, he]
            rebuilt := by simp
            scanned := by simp },
         ⟨fun _ _ => by simp, fun _ => by simp⟩⟩
      transit := fun _ _ _ law => transitLaw_of_refusing law rfl (by simp [he]) }

/-- RECOVER that succeeds ends from its last stage, in JOURNALING or HELD (R153). -/
theorem recoverEnd_kept {s : State} (he : s.epochs.engine = .recovering) {h : Header} {sc : Scan}
    (hr : s.epochs.recovery = .header h sc) (o : RecoverOutcome) {e : Engine} (hx : e ∈ [.journaling, .held]) :
    LawsKept s (recoverEnd o e s) := by
  refine LawsKept.trans ?_ (post_unread _ _).kept
  have hx' : e = .journaling ∨ e = .held := by simpa using hx
  exact
    { engine := fun law =>
        { law with
          walk := by rcases hx' with rfl | rfl <;> simp [walker_stopped law, he]
          recovery := by rcases hx' with rfl | rfl <;> simp
          format := by rcases hx' with rfl | rfl <;> simp [format_idle law, he]
          formatMarker := by rcases hx' with rfl | rfl <;> simp
          claimedIn := by simp [no_start_claimed law, he]
          mark := by simp [no_mark_pending law, he]
          checkpoint := by simp [no_ckpt_in_flight law, he]
          absent := by rcases hx' with rfl | rfl <;> simp
          present := fun _ => by
            have := law.read he
            simp only [hr, reduceCtorEq, exists_false, iff_false] at this
            exact Option.ne_none_iff_isSome.1 this
          unwritten := by rcases hx' with rfl | rfl <;> simp
          read := by rcases hx' with rfl | rfl <;> simp }
      maps := fun law m =>
        { m with
          active := fun _ => .inl (m.loading h sc ⟨0, 0, 0⟩ [] (.inr hr)).1
          formatting := by simp [format_idle law, he]
          scanning := by simp
          loading := by simp
          cutIn := fun h => absurd he (m.cutIn h).2.1
          cutClean := fun h => absurd he (m.cutIn h).2.1 }
      epochs := fun law m n =>
        ⟨{ n.1 with
            cut := fun h => absurd he (m.cutIn h).2.1
            current := fun _ => n.1.rebuilt h sc ⟨0, 0, 0⟩ [] (.inr hr)
            formatted := by simp [format_idle law, he]
            rebuilt := by simp
            scanned := by simp },
         { n.2 with }⟩
      transit := fun _ _ _ law => transitLaw_of_refusing law rfl (by simp [he]) }

/-! ## Header requests (R76 to R78) -/

/-- The engine states in which requests for a header write come about: not OFFLINE, and in RECOVERING at its last stage
only. -/
def WritesHeaders (s : State) : Prop :=
  s.epochs.engine ≠ .offline ∧ (s.epochs.engine = .recovering → ∃ h sc, s.epochs.recovery = .header h sc)

theorem writesHeaders_of_engine {s : State} (h : s.epochs.engine ∉ [.offline, .recovering]) : WritesHeaders s := by
  simp only [List.mem_cons, List.not_mem_nil, or_false, not_or] at h
  exact ⟨h.1, fun k => absurd k h.2⟩

theorem writesHeaders_of_header {s : State} {h : Header} {sc : Scan} (he : s.epochs.engine = .recovering)
    (hr : s.epochs.recovery = .header h sc) : WritesHeaders s :=
  ⟨by rw [he]; decide, fun _ => ⟨h, sc, hr⟩⟩

/-- Where a header write is in flight headers are written. -/
theorem writesHeaders_of_job {s : State} (law : EngineLaw s) {j : HeaderJob} (hj : s.journal.header.inFlight = some j) :
    WritesHeaders s := by
  have last (h : s.epochs.engine ∈ [.offline, .recovering]) : ∃ h sc, s.epochs.recovery = .header h sc := by
    by_contra k
    simp only [not_exists] at k
    have := ((law.unwritten h).2 k).1
    rw [hj] at this
    cases this
  refine ⟨fun k => ?_, fun k => last (by simp [k])⟩
  obtain ⟨h, sc, hr⟩ := last (by simp [k])
  have := law.recovery.2 (by rw [hr]; simp)
  rw [k] at this
  cases this

/-- A law of the engine that changes with the header writer alone. -/
theorem LawsKept.of_engine {s t : State} (he : EngineLaw s → EngineLaw t) (hm : mapView t = mapView s)
    (hn : epochView t = epochView s) (ha : accessView t = accessView s) (hc : captureView t = captureView s) :
    LawsKept s t where
  engine := he
  maps _ m := mapLaw_of_view m hm
  epochs _ _ n := n.of_view hn
  transit _ _ _ a := transitLaw_of_view a ha hc

theorem beginHeader_kept {s : State} (hs : WritesHeaders s) {kind : HeaderKind}
    (ha : kind = .formatA → s.epochs.format = .copyA) (hb : kind = .formatB → s.epochs.format = .copyB)
    (copy : Copy) (generation : Word) (rs : List HeaderRequest) :
    LawsKept s (beginHeader kind copy generation rs s) := by
  refine .of_engine (fun law => ?_) rfl rfl rfl rfl
  exact
    { law with
      copyA := fun j h => by cases h; exact ha
      copyB := fun j h => by cases h; exact hb
      unwritten := fun h => ⟨(law.unwritten h).1, fun k => by
        simp only [List.mem_cons, List.not_mem_nil, or_false] at h
        obtain ⟨h', sc, hr⟩ := hs.2 (h.resolve_left hs.1)
        exact absurd hr (k h' sc)⟩ }

theorem beginRequested_kept {s : State} (hs : WritesHeaders s) (rs : List HeaderRequest) :
    LawsKept s (beginRequested rs s) :=
  beginHeader_kept hs (by simp) (by simp) _ _ _

/-- Requests dropped, and a header write ended, leave less to be written. -/
theorem clearDirty_kept (s : State) : LawsKept s (clearDirty s) :=
  .of_engine (fun law => { law with
    unwritten := fun h => ⟨(law.unwritten h).1, fun k => ⟨((law.unwritten h).2 k).1, rfl⟩⟩ }) rfl rfl rfl rfl

theorem endHeader_kept (s : State) : LawsKept s (endHeader s) :=
  .of_engine (fun law => { law with
    copyA := fun j h => by cases h
    copyB := fun j h => by cases h
    unwritten := fun h => ⟨(law.unwritten h).1, fun k => ⟨rfl, ((law.unwritten h).2 k).2⟩⟩ }) rfl rfl rfl rfl

theorem beginDirty_kept {s : State} (hs : WritesHeaders s) : LawsKept s (beginDirty s) := by
  unfold beginDirty
  split
  · exact (clearDirty_kept s).trans (beginRequested_kept (by exact hs) _)
  · exact .refl s

/-- A request fails outside a walk (R78). -/
theorem failRequest_kept {s : State} (h : s.epochs.engine ≠ .rollingBack) (r : HeaderRequest) :
    LawsKept s (failRequest s r) := by
  unfold failRequest
  split
  · exact .refl s
  · split
    · exact (answer_unread _ _ s).kept
    · exact .refl s
  · exact .refl s
  · refine .of_law fun law => ?_
    rw [if_neg (by rw [walker_stopped law h]; decide)]
    exact .refl s
  · exact .refl s
  · exact .refl s
  · split
    next he => exact recoverFail_kept he _
    next => exact .refl s

theorem failRequest_engine {s : State} (h : s.epochs.engine ≠ .rollingBack) (r : HeaderRequest) :
    (failRequest s r).epochs.engine ≠ .rollingBack := by
  unfold failRequest
  split
  · exact h
  · split
    · rw [answer_eq]; exact h
    · exact h
  · exact h
  · split
    · exact h
    · exact h
  · exact h
  · exact h
  · split
    · unfold recoverFail
      rw [post_eq]
      simp
    · exact h

theorem failRequests_kept (rs : List HeaderRequest) {s : State} (h : s.epochs.engine ≠ .rollingBack) :
    LawsKept s (failRequests rs s) := by
  induction rs generalizing s with
  | nil => exact .refl s
  | cons r rs ih => exact (failRequest_kept h r).trans (ih (failRequest_engine h r))

theorem requestHeader_kept {s : State} (hs : WritesHeaders s) (r : HeaderRequest) :
    LawsKept s (requestHeader r s) := by
  unfold requestHeader
  split
  next he => exact failRequest_kept (by rw [he]; decide) r
  next =>
    split
    next => exact beginRequested_kept hs _
    next j hj =>
      refine .of_engine (fun law => ?_) rfl rfl rfl rfl
      exact
        { law with
          unwritten := fun h => ⟨(law.unwritten h).1, fun k => by
            have := ((law.unwritten h).2 k).1
            rw [hj] at this
            cases this⟩ }

end Sys2Proof.Machine
end

section
/-! The claims of the access boundary under the laws (R39, R40, R87, R89 to R91, R97, R98, R119). -/

namespace Sys2Proof.Machine

open Sys2Proof.Safety

/-! ## What the taking of a claim leaves of the upstream side -/

theorem cut_access (b : CutBy) (s : State) : accessView (cut b s) = accessView s := by
  unfold cut
  rw [allocate_eq, lowWater_eq]
  rfl

theorem takeCommit_access (s : State) : accessView (takeCommit s) = accessView s := by
  have h := takeCommit_unread s
  simp only [Unread, Prod.mk.injEq] at h
  exact h.2.2.2.1

theorem takeCut_access (s : State) : accessView (takeCut s) = accessView s := by
  unfold takeCut
  split
  · rfl
  · dsimp only
    split
    · exact cut_access _ _
    · rfl

theorem requestHeader_start_access {s : State} (h : s.epochs.engine ≠ .faulted) :
    accessView (requestHeader .start s) = accessView s := by
  cases hj : s.journal.header.inFlight with
  | none => rw [requestHeader_of_free h hj]; rfl
  | some j => rw [requestHeader_of_busy h hj]; rfl

theorem takeStart_access (s : State) : accessView (takeStart s) = accessView s := by
  unfold takeStart
  split
  · rfl
  · dsimp only
    split
    · exact requestHeader_start_access (by simp)
    · rfl

theorem no_access_of_view {s t : State} (h : accessView t = accessView s) (ha : s.transit.access = none) :
    t.transit.access = none := by
  simp only [accessView, Prod.mk.injEq] at h
  exact h.1.trans ha

theorem boundary_access (s : State) : accessView (boundary s) = accessView s := by
  unfold boundary
  split
  · rw [takeStart_access, takeCut_access, takeCommit_access]
  · rfl

theorem takeLeftover_access (s : State) : accessView (takeLeftover s) = accessView s := by
  unfold takeLeftover
  split
  · split
    · rw [takeStart_access, takeCut_access, takeCommit_access]
      rfl
    · rw [takeCommit_access, takeStart_access, takeCut_access]
      rfl
  · rw [takeStart_access, takeCut_access, takeCommit_access]

theorem settle_access (s : State) : (settle s).transit.access = s.transit.access := by
  unfold settle
  split
  · rw [arbitrate_transit]
    exact congrArg Prod.fst (takeLeftover_access s)
  · rfl

/-! ## The cut (R91) -/

/-- The next epoch's entry joins the table. -/
theorem table_append {table : List Entry} {last : Word}
    (rising : (table.map fun e => e.epoch.toNat).Pairwise (· < ·))
    (numbered : ∀ e ∈ table, 1 ≤ e.epoch.toNat ∧ e.epoch.toNat ≤ last.toNat) (left : last.toNat < 4294967295)
    {e : Entry} (he : e.epoch = last + 1) :
    ((table ++ [e]).map fun e => e.epoch.toNat).Pairwise (· < ·) ∧
      ∀ x ∈ table ++ [e], 1 ≤ x.epoch.toNat ∧ x.epoch.toNat ≤ (last + 1).toNat := by
  have next : (last + 1).toNat = last.toNat + 1 := by bv_omega
  constructor
  · rw [List.map_append, List.pairwise_append]
    refine ⟨rising, by simp, ?_⟩
    simp only [List.map_cons, List.map_nil, List.mem_cons, List.not_mem_nil, or_false, List.mem_map]
    rintro _ ⟨x, hx, rfl⟩ _ rfl
    have := (numbered x hx).2
    rw [he]
    omega
  · intro x hx
    rcases List.mem_append.1 hx with hx | hx
    · have := numbered x hx
      omega
    · rw [List.mem_singleton.1 hx, he]
      omega

theorem swapMaps_keeps_window (m : CaptureMaps) : (swapMaps m).window = m.window := by
  cases h : m.find .active with
  | some i => exact swapMaps_window h
  | none => cases hc : m.find .clean <;> simp [swapMaps, h, hc, setState_window]

/-- What a cut changes of the state that the laws read: the table, the maps, the pending mark and the MARKER. -/
def cutMade (e : Entry) (j : MarkerJob) (s : State) : State :=
  { s with
    transit.claims.cut := none
    epochs.lastUsed := s.epochs.lastUsed + 1
    epochs.table := s.epochs.table ++ [e]
    epochs.pendingMark := 0
    maps := swapMaps s.maps
    journal.marker := .inFlight j }

/-- The cut keeps the laws: the map it raises was CLEAN, the table has room, a number is left. -/
theorem cutMade_kept {s : State} (ha : s.transit.access = none) (hc : s.transit.claims.cut.isSome = true)
    (he : s.epochs.engine = .journaling) (hf : s.epochs.ckptInFlight = true) {e : Entry}
    (hn : e.epoch = s.epochs.lastUsed + 1) (j : MarkerJob) : LawsKept s (cutMade e j s) where
  engine law :=
    { law with
      formatMarker := by simp [cutMade, he]
      mark := by simp [cutMade]
      marks := by simp [cutMade]
      window := (swapMaps_keeps_window _).trans law.window
      unwritten := by simp [cutMade, he] }
  maps law m := by
    obtain ⟨g, hg⟩ := Option.isSome_iff_exists.1 (law.present (by simp [he]))
    have hw : s.maps.window = some g.window := by rw [law.window, hg]; rfl
    obtain ⟨i, hi⟩ := Option.ne_none_iff_exists'.1 ((find_ne_none s.maps .active).2 (m.active (by simp [he])))
    obtain ⟨j, hj⟩ := Option.ne_none_iff_exists'.1 ((find_ne_none s.maps .clean).2 (m.cutClean hc he))
    have sweeps := (sweepsLawful_of_mapLaw m).swapMaps hw hi
    have swept := get_swapMaps_active (by simp [hw]) hi
    have raised := get_swapMaps_clean (by simp [hw]) hi hj
    exact
      { one := not_both_of_get (i := i) (by show ((swapMaps s.maps).get i).state ≠ _; rw [swept]; decide)
        active := fun _ => state_of_get raised
        running := sweeps.running
        queued := sweeps.queued
        sweeping := sweeps.sweeping
        formatting := by simp [cutMade, format_idle law, he]
        scanning := by simp [cutMade, recovery_idle law, he]
        loading := by simp [cutMade, recovery_idle law, he]
        cutIn := by simp [cutMade]
        cutClean := by simp [cutMade] }
  epochs law _ n := by
    obtain ⟨rising, numbered⟩ := table_append n.1.rising n.1.numbered (n.2.cut hc hf) hn
    have room := n.1.cut hc he
    have unclaimed := (law.checkpoint hf).2
    exact
      ⟨{  room := by simp [cutMade]; omega
          rising := rising
          numbered := numbered
          cut := by simp [cutMade]
          current := by simp [cutMade]
          formatted := by simp [cutMade, format_idle law, he]
          rebuilt := by simp [cutMade]
          scanned := by simp [cutMade, recovery_idle law, he] },
       { cut := by simp [cutMade]
         walk := by simp [cutMade, unclaimed, walker_stopped law, he] }⟩
  transit _ _ _ law := transitLaw_of_no_access law rfl ha

theorem takeCut_kept {s : State} (ha : s.transit.access = none) : LawsKept s (takeCut s) := by
  cases hc : s.transit.claims.cut with
  | none => rw [takeCut_of_not_waiting hc]; exact .refl s
  | some b =>
    by_cases taken : s.epochs.engine = .journaling ∧ s.epochs.ckptInFlight = true
    · obtain ⟨he, hf⟩ := taken
      refine .of_law fun law => ?_
      obtain ⟨g, hg⟩ := Option.isSome_iff_exists.1 (law.present (by simp [he]))
      rw [takeCut_of_taken hc he hf, cut_eq (by exact hg), lowWater_eq]
      exact (cutMade_kept (e := ⟨s.epochs.lastUsed + 1, s.journal.tail, s.journal.sequence, 0,
        cutCause b s.epochs.pendingMark⟩) ha (by rw [hc]; rfl) he hf rfl ⟨s.epochs.lastUsed + 1, s.journal.tail, .cut,
          cutCause b s.epochs.pendingMark, s.epochs.pendingMark, markerRecord g.identity s.journal.sequence
            (s.epochs.lastUsed + 1) (cutCause b s.epochs.pendingMark) s.epochs.pendingMark 0, 0⟩).trans (Unread.kept rfl)
    · rw [takeCut_of_dropped hc (by simpa [or_iff_not_imp_left] using taken)]
      exact
        { engine := fun law => { law with checkpoint := by simp }
          maps := fun _ m => { m with cutIn := by simp, cutClean := by simp }
          epochs := fun _ _ n => ⟨{ n.1 with cut := by simp }, { n.2 with cut := by simp }⟩
          transit := fun _ _ _ law => transitLaw_of_no_access law rfl ha }

/-! ## The rollback start (R119) -/

theorem takeStart_kept {s : State} (ha : s.transit.access = none) : LawsKept s (takeStart s) := by
  cases hc : s.transit.claims.start with
  | none => rw [takeStart_of_not_waiting hc]; exact .refl s
  | some k =>
    by_cases taken : s.epochs.engine = .journaling ∨ s.epochs.engine = .held
    · rw [takeStart_of_taken hc taken]
      refine LawsKept.trans ?_ (requestHeader_kept (writesHeaders_of_engine (by simp)) _)
      refine .of_law fun law => ?_
      have started : s.epochs.startClaimed = true := by rw [law.claimed, hc]; rfl
      exact
        { engine := fun law =>
            { law with
              walk := by simp
              recovery := by rcases taken with he | he <;> simp [recovery_idle law, he]
              format := by rcases taken with he | he <;> simp [format_idle law, he]
              formatMarker := by simp
              claimed := by simp
              claimedIn := by simp
              mark := by simp [no_mark_pending law (.inr started)]
              checkpoint := by simp [no_ckpt_in_flight law (.inr started)]
              absent := by simp
              present := fun _ => law.present (by rcases taken with he | he <;> simp [he])
              unwritten := by simp
              read := by simp }
          maps := fun _ m =>
            { m with
              active := fun _ => m.active (by rcases taken with he | he <;> simp [he])
              cutIn := fun _ => ⟨by simp, by simp, fun k => absurd ha k⟩
              cutClean := by simp }
          epochs := fun _ _ n =>
            ⟨{ n.1 with
                cut := by simp
                current := fun _ => n.1.current (by rcases taken with he | he <;> simp [he]) },
             { n.2 with walk := fun _ => n.2.walk (.inl started) }⟩
          transit := fun _ _ _ law => transitLaw_of_no_access law rfl ha }
    · rw [takeStart_of_dropped hc taken]
      exact
        { engine := fun law =>
            { law with
              claimed := rfl
              claimedIn := by simp
              mark := fun h => ⟨(law.mark h).1, rfl⟩
              checkpoint := fun h => ⟨(law.checkpoint h).1, rfl⟩ }
          maps := fun _ m => mapLaw_of_view m rfl
          epochs := fun _ _ n =>
            ⟨{ n.1 with }, { n.2 with walk := fun h => n.2.walk (.inr (h.resolve_left (by simp))) }⟩
          transit := fun _ _ _ law => transitLaw_of_no_access law rfl ha }

/-! ## The boundary (R39, R40) -/

/-- The claims taken in their usual order. -/
theorem takeAll_kept {s : State} (ha : s.transit.access = none) :
    LawsKept s (takeStart (takeCut (takeCommit s))) := by
  have h1 := no_access_of_view (takeCommit_access s) ha
  exact ((takeCommit_unread s).kept.trans (takeCut_kept h1)).trans
    (takeStart_kept (no_access_of_view (takeCut_access _) h1))

theorem boundary_kept {s : State} (ha : s.transit.access = none) : LawsKept s (boundary s) := by
  unfold boundary
  split
  · exact takeAll_kept ha
  · exact .refl s

theorem claimed_kept (s : State) : LawsKept s (claimed s) := by
  unfold claimed
  split
  next h => exact boundary_kept (Option.isNone_iff_eq_none.1 h)
  next => exact .refl s

theorem takeLeftover_kept {s : State} (ha : s.transit.access = none) : LawsKept s (takeLeftover s) := by
  unfold takeLeftover
  split
  · have h0 : (nextFresh s).transit.access = none := ha
    split
    · exact (nextFresh_unread s).kept.trans (takeAll_kept h0)
    · exact (((nextFresh_unread s).kept.trans (takeCut_kept h0)).trans
        (takeStart_kept (no_access_of_view (takeCut_access _) h0))).trans (takeCommit_unread _).kept
  · exact takeAll_kept ha

theorem settle_kept (s : State) : LawsKept s (settle s) := by
  unfold settle
  split
  next h => exact (takeLeftover_kept (Option.isNone_iff_eq_none.1 h.1)).trans (arbitrate_kept _)
  next => exact .refl s

/-! ## Claims made (R87, R89, R97, R98) -/

/-- What the cut conditions say together (R89). -/
theorem cutConditions_of_none {s : State} (h : cutFailure s = none) :
    s.epochs.engine = .journaling ∧ s.epochs.startClaimed = false ∧
      (s.maps.m0.state = .clean ∨ s.maps.m1.state = .clean) ∧ s.epochs.table.length < 16 ∧
      s.epochs.lastUsed.toNat < 4294967295 := by
  rw [cutFailure_eq] at h
  simp only [ite_eq_iff, reduceCtorEq, and_false, false_or, and_true, not_not] at h
  obtain ⟨⟨he, hs⟩, -, clean, -, room, left⟩ := h
  exact ⟨he, hs, clean, room, left⟩

theorem claimCut_kept {s : State} (h : cutFailure s = none) (b : CutBy) : LawsKept s (claimCut b s) := by
  obtain ⟨he, hs, clean, room, left⟩ := cutConditions_of_none h
  exact
    { engine := fun law => { law with checkpoint := fun _ => ⟨he, hs⟩ }
      maps := fun _ m =>
        { m with
          cutIn := fun _ => by simp [claimCut, setClaims, he]
          cutClean := fun _ _ => clean }
      epochs := fun _ _ n => ⟨{ n.1 with cut := fun _ _ => room }, { n.2 with cut := fun _ _ => left }⟩
      transit := fun _ _ _ law => transitLaw_of_view law rfl rfl }

theorem markRequest_kept (s : State) : LawsKept s (markRequest s) := by
  unfold markRequest
  split
  next => exact .refl s
  next h =>
    obtain ⟨he, hs⟩ : s.epochs.engine = .journaling ∧ s.epochs.startClaimed = false := by simpa using h
    have counted : LawsKept s (s.setEpochs { s.epochs with pendingMark := min 255 (s.epochs.pendingMark + 1) }) :=
      .of_engine (fun law => { law with mark := fun _ => ⟨he, hs⟩, marks := Nat.min_le_left _ _ }) rfl rfl rfl rfl
    dsimp only
    split
    · exact counted
    · split
      next h => exact counted.trans (claimCut_kept h _)
      next => exact counted.trans (post_unread _ _).kept

theorem reevaluate_kept (s : State) : LawsKept s (reevaluate s) := by
  unfold reevaluate
  split
  next h => exact (claimCut_kept h.2.2 _).trans (claimed_kept _)
  next => exact .refl s

theorem claimCommit_kept (s : State) : LawsKept s (claimCommit s) :=
  LawsKept.trans (t := setClaims { s.transit.claims with commit := true } s) (Unread.kept rfl) (claimed_kept _)

end Sys2Proof.Machine
end

section
/-! The upstream access under the laws: its arrival, its beats, its capture and its end (R21 to R39, R104 to R111). -/

namespace Sys2Proof.Machine

open Sys2Proof.Safety

/-! ## The end of an access (R22, R38, R39) -/

/-- The upstream side comes out lawful however it stood before. -/
structure Lands (s t : State) : Prop extends TablesKept s t where
  transit : EngineLaw s → MapLaw s → EpochsGoOn s → TransitLaw t

theorem Lands.kept {s t : State} (h : Lands s t) : LawsKept s t :=
  { h.toTablesKept with transit := fun e m n _ => h.transit e m n }

theorem TablesKept.lands_of_idle {s t : State} (h : TablesKept s t) (idle : Idle t) : Lands s t :=
  { h with transit := fun _ _ _ => idle.transitLaw }

theorem TablesKept.lands {s t u : State} (h : TablesKept s t) (k : Lands t u) : Lands s u :=
  { h.trans k.toTablesKept with transit := fun e m n => k.transit (h.engine e) (h.maps e m) (h.epochs e m n) }

theorem dropAccess_idle (s : State) : Idle (dropAccess s) := by
  rw [dropAccess_eq]
  refine ⟨rfl, rfl, ?_⟩
  simp only [accessOver, ne_eq]
  split
  next => simp
  next h => exact h

theorem dropAccess_lands (s : State) : Lands s (dropAccess s) := by
  refine TablesKept.lands_of_idle ?_ (dropAccess_idle s)
  rw [dropAccess_eq]
  exact .of_access rfl rfl rfl (.inl rfl)

theorem markRequest_access (s : State) : accessView (markRequest s) = accessView s := by
  unfold markRequest
  split
  · rfl
  · dsimp only
    split
    · rfl
    · split
      · rfl
      · rw [post_eq]; rfl

theorem endAccess_idle (marks : Bool) (s : State) : Idle (endAccess marks s) := by
  unfold endAccess
  refine Idle.of_view ?_ (boundary_access _)
  cases marks with
  | false => exact dropAccess_idle s
  | true => exact (dropAccess_idle s).of_view (markRequest_access _)

theorem endAccess_lands (marks : Bool) (s : State) : Lands s (endAccess marks s) := by
  refine TablesKept.lands_of_idle ?_ (endAccess_idle marks s)
  have idle := dropAccess_idle s
  refine (dropAccess_lands s).toTablesKept.trans ?_
  cases marks with
  | false => exact (boundary_kept idle.access).toTablesKept
  | true =>
    exact ((markRequest_kept _).trans (boundary_kept (idle.of_view (markRequest_access _)).access)).toTablesKept

theorem answerErr_idle (write : Bool) (s : State) : Idle (answerErr write s) := endAccess_idle _ _

theorem answerErr_lands (write : Bool) (s : State) : Lands s (answerErr write s) :=
  (answerBeat_unread _ s).kept.toTablesKept.lands (endAccess_lands _ _)

theorem refuseAccess_idle (a : Access) (e : Engine) (s : State) : Idle (refuseAccess a e s) := answerErr_idle _ _

theorem refuseAccess_lands (a : Access) (e : Engine) (s : State) : Lands s (refuseAccess a e s) :=
  (post_unread _ s).kept.toTablesKept.lands (answerErr_lands _ _)

theorem failCapture_lands (a : Access) (op : PortOperation) (addr : Nat) (s : State) :
    Lands s (failCapture a op addr s) :=
  ((returnSlot_unread s).kept.trans (post_unread _ _).kept).toTablesKept.lands (answerErr_lands _ _)

/-! ## The capture stands (R35, R51, R84) -/

theorem setBit_eq_self_or_put (m : CaptureMaps) (a : Nat) :
    setBit m a = m ∨ ∃ i b, setBit m a = m.put i { m.get i with bits := insertBit (m.get i).bits b } := by
  unfold setBit
  split
  · exact .inr ⟨_, _, rfl⟩
  · exact .inl rfl

theorem setBit_fields (m : CaptureMaps) (a : Nat) : (setBit m a).window = m.window ∧
    (setBit m a).running = m.running ∧ (setBit m a).queued = m.queued := by
  rcases setBit_eq_self_or_put m a with h | ⟨i, b, h⟩
  · rw [h]; exact ⟨rfl, rfl, rfl⟩
  · rw [h]; exact ⟨put_window _ _ _, put_running _ _ _, put_queued _ _ _⟩

theorem setBit_bits_mono (m : CaptureMaps) (a : Nat) (j : MapId) {k : Nat} (h : k ∈ (m.get j).bits) :
    k ∈ ((setBit m a).get j).bits := by
  rcases setBit_eq_self_or_put m a with eq | ⟨i, b, eq⟩
  · rwa [eq]
  · rw [eq]
    by_cases hj : j = i
    · subst hj
      rw [get_put_same]
      exact (mem_insertBit _ _ _).2 (.inr h)
    · rwa [get_put_other m hj]

theorem setBit_find (m : CaptureMaps) (a : Nat) (x : MapState) : (setBit m a).find x = m.find x :=
  find_congr (setBit_states m a) x

theorem bitSet_iff (s : State) (a : Nat) : bitSet s a = true ↔ ∃ i w, s.maps.find .active = some i ∧
    s.maps.window = some w ∧ w.index a ∈ (s.maps.get i).bits := by
  unfold bitSet CaptureMaps.indexOf
  cases hi : s.maps.find .active with
  | none => simp
  | some i => cases hw : s.maps.window <;> simp

theorem bitSet_recordCapture_mono (a : Nat) {s : State} {b : Nat} (h : bitSet s b = true) :
    bitSet (recordCapture a s) b = true := by
  obtain ⟨i, w, hi, hw, hb⟩ := (bitSet_iff s b).1 h
  exact (bitSet_iff _ b).2 ⟨i, w, (setBit_find _ _ _).trans hi, (setBit_fields _ _).1.trans hw,
    setBit_bits_mono _ _ _ hb⟩

/-- Where a journal is at work a capture sets its granule's bit. -/
theorem bitSet_recordCapture (a : Nat) {s : State} (law : EngineLaw s) (m : MapLaw s)
    (he : s.epochs.engine = .journaling) : bitSet (recordCapture a s) a = true := by
  obtain ⟨i, hi⟩ := Option.ne_none_iff_exists'.1 ((find_ne_none s.maps .active).2 (m.active (by simp [he])))
  obtain ⟨g, hg⟩ := Option.isSome_iff_exists.1 (law.present (by simp [he]))
  have hw : s.maps.window = some g.window := by rw [law.window, hg]; rfl
  refine (bitSet_iff _ a).2 ⟨i, g.window, (setBit_find _ _ _).trans hi, (setBit_fields _ _).1.trans hw, ?_⟩
  show _ ∈ ((setBit s.maps a).get i).bits
  rw [setBit_eq hi hw, get_put_same]
  exact (mem_insertBit _ _ _).2 (.inl rfl)

theorem raiseLast_epochs (t : List Entry) : (raiseLast t).map (·.epoch) = t.map (·.epoch) := by
  induction t with
  | nil => rfl
  | cons e t ih =>
    cases t with
    | nil => rfl
    | cons f t => simpa [raiseLast] using ih

theorem currentEpoch_eq (s : State) :
    s.currentEpoch = ((s.epochs.table.map (·.epoch)).getLast?).getD 0 := by
  unfold State.currentEpoch
  rw [List.getLast?_map]
  cases s.epochs.table.getLast? <;> rfl

theorem currentEpoch_recordCapture (a : Nat) (s : State) : (recordCapture a s).currentEpoch = s.currentEpoch := by
  rw [currentEpoch_eq, currentEpoch_eq]
  exact congrArg (fun l => (l.getLast?).getD 0) (raiseLast_epochs _)

/-- What two lists of entries with the same epoch numbers have in common. -/
theorem entries_of_epochs {l m : List Entry} (h : m.map (·.epoch) = l.map (·.epoch)) : m.length = l.length ∧
    (m.map fun e => e.epoch.toNat) = (l.map fun e => e.epoch.toNat) ∧ ∀ e ∈ m, ∃ x ∈ l, x.epoch = e.epoch := by
  refine ⟨by simpa using congrArg List.length h, ?_, fun e he => ?_⟩
  · have := congrArg (List.map BitVec.toNat) h
    rwa [List.map_map, List.map_map] at this
  · have : e.epoch ∈ l.map (·.epoch) := h ▸ List.mem_map_of_mem he
    exact List.mem_map.1 this

/-- The table's law is a law of its epoch numbers. -/
theorem epochsGoOn_of_numbers {s t : State} (n : EpochsGoOn s)
    (h : t.epochs.table.map (·.epoch) = s.epochs.table.map (·.epoch))
    (hv : (epochView t).1.2 = (epochView s).1.2) (hw : (epochView t).2 = (epochView s).2) : EpochsGoOn t := by
  simp only [epochView, Prod.mk.injEq] at hv hw
  obtain ⟨hl, he, hf, hr⟩ := hv
  obtain ⟨hc, hk, hs, hw⟩ := hw
  obtain ⟨law, left⟩ := n
  obtain ⟨length, numbers, member⟩ := entries_of_epochs h
  have nonempty : s.epochs.table ≠ [] → t.epochs.table ≠ [] := by
    intro k
    rwa [ne_eq, ← List.length_eq_zero_iff, length, List.length_eq_zero_iff]
  exact
    ⟨{  room := by rw [length]; exact law.room
        rising := by rw [numbers]; exact law.rising
        numbered := by
          intro e he
          obtain ⟨x, hx, eq⟩ := member e he
          rw [hl, ← eq]
          exact law.numbered x hx
        cut := by rw [hc, he, length]; exact law.cut
        current := by rw [he]; exact fun k => nonempty (law.current k)
        formatted := by rw [hf, length]; exact law.formatted
        rebuilt := by rw [hr]; exact fun h sc ld buf k => nonempty (law.rebuilt h sc ld buf k)
        scanned := by rw [hr]; exact law.scanned },
     { cut := by rw [hc, hk, hl]; exact left.cut
       walk := by rw [hs, hw, hl]; exact left.walk }⟩

/-- A bit set leaves every map in its state. -/
theorem setBit_mapLaw (a : Nat) {s : State} (m : MapLaw s) : MapLaw (s.setMaps (setBit s.maps a)) := by
  obtain ⟨-, running, queued⟩ := setBit_fields s.maps a
  have states := setBit_states s.maps a
  have m0 : (setBit s.maps a).m0.state = s.maps.m0.state := states .m0
  have m1 : (setBit s.maps a).m1.state = s.maps.m1.state := states .m1
  have sweeps := (sweepsLawful_of_mapLaw m).of_states (fun j => by rw [states]) running queued
  exact
    { one := by rw [State.maps_setMaps, m0, m1]; exact m.one
      active := by rw [State.maps_setMaps, m0, m1]; exact m.active
      running := sweeps.running
      queued := sweeps.queued
      sweeping := sweeps.sweeping
      formatting := by rw [State.maps_setMaps, m0, m1]; exact m.formatting
      scanning := by rw [State.maps_setMaps, m0, m1]; exact m.scanning
      loading := by rw [State.maps_setMaps, m0, m1]; exact m.loading
      cutIn := m.cutIn
      cutClean := by rw [State.maps_setMaps, m0, m1]; exact m.cutClean }

theorem recordCapture_kept (a : Nat) (s : State) : LawsKept s (recordCapture a s) where
  engine law := { law with window := (setBit_fields s.maps a).1.trans law.window }
  maps _ m := mapLaw_of_view (setBit_mapLaw a m) rfl
  epochs _ _ n := epochsGoOn_of_numbers n (raiseLast_epochs _) rfl rfl
  transit _ _ _ law :=
    transitLaw_of_kept law rfl rfl (fun _ => bitSet_recordCapture_mono a) (currentEpoch_recordCapture a s) rfl id id

/-! ## Moves of the access in progress -/

theorem transitLaw_of_access {t : State} {a : Access} (ha : t.transit.access = some a) (law : AccessLaw t a)
    (hp : t.dport.burst = some .transit → a.stage = .forward ∨ a.stage = .readOld) : TransitLaw t where
  access b hb := by
    rw [ha] at hb
    cases hb
    exact law
  idle h := by rw [ha] at h; cases h
  port h := ⟨a, ha, hp h⟩

/-- The access in progress moves on, and nothing else that a law reads changes. -/
theorem access_moved_kept {s t : State} {a b : Access} (ha : s.transit.access = some a) (hb : t.transit.access = some b)
    (he : engineView t = engineView s) (hm : (t.maps, t.transit.claims.cut) = (s.maps, s.transit.claims.cut))
    (hn : epochView t = epochView s)
    (hp : (s.dport.burst = some .transit → a.stage = .forward ∨ a.stage = .readOld) →
      t.dport.burst = some .transit → b.stage = .forward ∨ b.stage = .readOld)
    (h : EngineLaw s → MapLaw s → EpochsGoOn s → AccessLaw s a → AccessLaw t b) : LawsKept s t where
  toTablesKept := .of_access he hm hn (.inr (.inl (by rw [ha]; simp)))
  transit e m n law := by
    refine transitLaw_of_access hb (h e m n (law.access a ha)) (hp fun k => ?_)
    obtain ⟨x, hx, stage⟩ := law.port k
    rw [ha] at hx
    cases hx
    exact stage

theorem access_of_forwarding {s : State} {a : Access} (h : forwarding s = some a) :
    s.transit.access = some a ∧ a.stage = .forward := by
  unfold forwarding at h
  cases ha : s.transit.access with
  | none => rw [ha] at h; cases h
  | some b =>
    simp only [ha] at h
    split at h
    next k => cases h; exact ⟨rfl, k.1⟩
    next => cases h

theorem access_of_readingOld {s : State} {a : Access} (h : readingOld s = some a) :
    s.transit.access = some a ∧ a.stage = .readOld := by
  unfold readingOld at h
  cases ha : s.transit.access with
  | none => rw [ha] at h; cases h
  | some b =>
    simp only [ha] at h
    split at h
    next k => cases h; exact ⟨rfl, k.1⟩
    next => cases h

theorem access_of_writingRecord {s : State} {a : Access} (h : writingRecord s = some a) :
    s.transit.access = some a ∧ a.stage = .writeRecord := by
  unfold writingRecord at h
  cases ha : s.transit.access with
  | none => rw [ha] at h; cases h
  | some b =>
    simp only [ha] at h
    split at h
    next k => cases h; exact ⟨rfl, k⟩
    next => cases h

theorem freeD_kept (s : State) : LawsKept s (freeD s) where
  toTablesKept := .of_views rfl rfl rfl
  transit _ _ _ law :=
    { access := fun a h => { law.access a h with }
      idle := law.idle
      port := fun h => by cases h }

/-- One more beat acknowledged, not the last (R24). -/
theorem beat_counted_kept {s : State} {a : Access} (ha : s.transit.access = some a) (hb : a.acked + 1 ≠ beatsOf a.burst) :
    LawsKept s (setAccess { a with acked := a.acked + 1 } s) := by
  refine access_moved_kept ha rfl rfl rfl rfl id fun _ _ _ law => ?_
  exact { law with beats := by have := law.beats; show a.acked + 1 < beatsOf a.burst; omega }

/-- One more old-data burst read (R33). -/
theorem old_burst_counted_kept {s : State} {a : Access} (ha : s.transit.access = some a) (n : Nat) :
    LawsKept s (setAccess { a with oldBursts := n } s) :=
  access_moved_kept ha rfl rfl rfl rfl id fun _ _ _ law => { law with }

/-- One more burst of the record written (R73). -/
theorem record_burst_counted_kept {s : State} {a : Access} (ha : s.transit.access = some a) (n : Nat) :
    LawsKept s (setAccess { a with recBursts := n } s) :=
  access_moved_kept ha rfl rfl rfl rfl id fun _ _ _ law => { law with }

theorem no_timer_of_stage {s : State} {a : Access} (law : AccessLaw s a) (h : a.stage ≠ .waitSpace) :
    s.transit.timer.isSome = false := by
  by_contra k
  exact h (law.timer.1 (Bool.eq_true_of_not_eq_false k))

/-- The old data read, the record's write begins (R34). -/
theorem record_begun_kept {s : State} {a : Access} (ha : s.transit.access = some a) (hs : a.stage = .readOld)
    (hp : s.dport.burst ≠ some .transit) (old rec' : Nat) (record : List Byte) : LawsKept s (setAccess
      { a with oldBursts := old, stage := .writeRecord, recBursts := rec', record := record } s) := by
  refine access_moved_kept ha rfl rfl rfl rfl (fun _ h => absurd h hp) fun _ _ _ law => ?_
  have timer := no_timer_of_stage law (by rw [hs]; decide)
  exact
    { law with
      stage := by simp
      capturing := fun _ => law.capturing (by rw [hs]; decide)
      slot := fun _ => law.slot (.inl hs)
      waiting := fun h => by cases h
      broken := fun h => by cases h
      timer := by simpa [setAccess] using timer
      writeAhead := fun h => by cases h }

/-- A write whose granule stands captured and whose epoch's MARKER is written goes on to the memory (R31, R35). -/
theorem accessLaw_of_captured {s t : State} {a : Access} (law : AccessLaw s a)
    (hs : a.stage = .writeRecord ∨ a.stage = .waitMarker) (he : t.epochs.engine = s.epochs.engine)
    (ht : t.transit.timer = s.transit.timer) (set : bitSet t (byteAddr a.ua) = true)
    (complete : markerComplete t t.currentEpoch = true) : AccessLaw t { a with stage := .forward } where
  beats := law.beats
  stage := by simp
  action := law.action
  governed := by rw [he]; exact law.governed
  capturing h := absurd rfl h
  slot h := by simp at h
  waiting h := by cases h
  broken h := by cases h
  timer := by
    have timer := no_timer_of_stage law (by rcases hs with h | h <;> rw [h] <;> decide)
    rw [ht]
    simpa using timer
  writeAhead _ _ _ _ _ := .inl ⟨set, complete⟩

/-- The capture stands and its write goes on (R35). -/
theorem capture_stands_kept {s : State} {a : Access} (ha : s.transit.access = some a)
    (hs : a.stage = .writeRecord ∨ a.stage = .waitMarker) (hm : markerComplete s s.currentEpoch = true) :
    LawsKept s (setAccess { a with stage := .forward } (recordCapture (byteAddr a.ua) s)) where
  toTablesKept := (recordCapture_kept _ s).toTablesKept.trans
    (.of_access rfl rfl rfl (.inr (.inl (by rw [recordCapture_transit, ha]; simp))))
  transit e m _ law := by
    have law := law.access a ha
    have he := (law.capturing (by rcases hs with h | h <;> rw [h] <;> decide)).2.2.2
    refine transitLaw_of_access rfl ?_ fun _ => .inl rfl
    refine accessLaw_of_captured law hs rfl rfl (bitSet_recordCapture _ e m he) ?_
    show markerComplete s (recordCapture (byteAddr a.ua) s).currentEpoch = true
    rwa [currentEpoch_recordCapture]

/-- The record complete, the capture stands and the write goes on, or it waits for its epoch's MARKER (R34, R35). -/
theorem recordComplete_kept {s : State} {a : Access} (ha : s.transit.access = some a) (hs : a.stage = .writeRecord) :
    LawsKept s (recordComplete a s) := by
  unfold recordComplete
  split
  next complete => exact capture_stands_kept ha (.inl hs) complete
  next =>
    refine access_moved_kept ha rfl rfl rfl rfl (fun h k => ?_) fun _ _ _ law => ?_
    · have := h k
      rw [hs] at this
      simp at this
    · have timer := no_timer_of_stage law (by rw [hs]; decide)
      have slot := law.slot (.inr hs)
      exact
        { law with
          stage := by simp
          capturing := fun _ => law.capturing (by rw [hs]; decide)
          slot := fun h => by simp at h
          waiting := fun _ h => by rw [h] at slot; cases slot
          broken := fun h => by cases h
          timer := by simpa [setAccess] using timer
          writeAhead := fun h => by cases h }

/-! ## The MARKER's end, the hold timer, and space (R31, R35, R105, R106, R110, R111) -/

/-- A write waiting for its MARKER goes on once none is in flight (R31, R35). -/
theorem releaseWaitMarker_kept {s : State} (hm : s.journal.marker = .none) : LawsKept s (releaseWaitMarker s) := by
  have complete : markerComplete s s.currentEpoch = true := by unfold markerComplete; rw [hm]
  unfold releaseWaitMarker
  split
  next => exact .refl s
  next a ha =>
    split
    next hs =>
      split
      next => exact capture_stands_kept ha (.inr hs) complete
      next slot =>
        refine access_moved_kept ha rfl rfl rfl rfl (fun _ _ => .inl rfl) fun _ _ _ law => ?_
        exact accessLaw_of_captured law (.inr hs) rfl rfl (law.waiting hs (by simpa using slot)) complete
    next => exact .refl s

/-- The break of an epoch recorded, the write that waited for it goes on (R106, R109). -/
theorem breakRecorded_kept (e : Word) (s : State) : LawsKept s (breakRecorded e s) := by
  unfold breakRecorded
  split
  next =>
    have recorded : LawsKept s (s.setEpochs { s.epochs with breakRecording := false }) :=
      { toTablesKept := .of_views rfl rfl rfl
        transit := fun _ _ _ law => transitLaw_of_kept law rfl rfl (fun _ => id) rfl rfl id fun _ => rfl }
    dsimp only
    split
    next => exact recorded
    next a ha =>
      split
      next hs =>
        refine recorded.trans (access_moved_kept ha rfl rfl rfl rfl (fun _ _ => .inl rfl) fun _ _ _ law => ?_)
        have timer := no_timer_of_stage law (by rw [hs]; decide)
        have broken := law.broken hs
        exact
          { law with
            stage := by simp
            capturing := fun h => absurd rfl h
            slot := fun h => by simp at h
            waiting := fun h => by cases h
            broken := fun h => by cases h
            timer := by simpa [setAccess] using timer
            writeAhead := fun _ _ _ _ _ => .inr ⟨broken, rfl⟩ }
      next => exact recorded
  next => exact .refl s

/-- A stalled write has a slot and reads its granule's old bytes, the hold timer stopped (R33, R110). -/
def captureBegun (a : Access) (s : State) : State :=
  { s with
    transit.access := some { a with stage := .readOld, slot := some (nextGrant s), oldBursts := 0 }
    transit.timer := none }

/-- Space found, a stalled write begins its capture with the hold timer stopped (R110). -/
theorem retestSpace_kept (s : State) : LawsKept s (retestSpace s) := by
  unfold retestSpace
  split
  next => exact .refl s
  next a ha =>
    split
    next h =>
      have begun : LawsKept s (captureBegun a s) := by
        refine access_moved_kept ha rfl rfl rfl rfl (fun _ _ => .inr rfl) fun _ _ _ law => ?_
        exact
          { law with
            stage := by simp
            capturing := fun _ => law.capturing (by rw [h.1]; decide)
            slot := fun _ => rfl
            waiting := fun h => by cases h
            broken := fun h => by cases h
            timer := by simp [captureBegun]
            writeAhead := fun h => by cases h }
      refine begun.trans (Unread.kept ?_)
      unfold startCapture
      rw [allocate_eq, lowWater_eq]
      rfl
    next => exact .refl s

end Sys2Proof.Machine
end

section
/-! The arrival of an access under the laws: its match, its capture tests and the full-journal rules (R21 to R31, R104,
R105, R109). -/

namespace Sys2Proof.Machine

open Sys2Proof.Safety

/-! ## The capture tests (R31, R104, R105) -/

/-- An access for which the capture tests are made: a capture-governed write that has just arrived in JOURNALING. -/
structure Testing (a : Access) : Prop where
  write : a.write = true
  governed : a.result.action.governed = true
  engineAt : a.engineAt = .journaling
  cut : a.cut = .no
  acked : a.acked = 0

theorem beatsOf_pos (burst : Bool) : 0 < beatsOf burst := by cases burst <;> decide

/-- What is left to show of an access for which the tests are made: the facts of the stage it enters. -/
theorem accessLaw_of_testing {t : State} {a : Access} (h : Testing a) (he : t.epochs.engine = .journaling)
    (hs : a.stage ≠ .answer) (slot : a.stage = .readOld ∨ a.stage = .writeRecord → a.slot.isSome = true)
    (waiting : a.stage = .waitMarker → bitSet t (byteAddr a.ua) = true)
    (broken : a.stage = .waitHeader → currentBroken t = true)
    (timer : t.transit.timer.isSome = true ↔ a.stage = .waitSpace)
    (ahead : a.stage = .forward → (bitSet t (byteAddr a.ua) = true ∧ markerComplete t t.currentEpoch = true) ∨
      (currentBroken t = true ∧ t.epochs.breakRecording = false)) : AccessLaw t a where
  beats := by rw [h.acked]; exact beatsOf_pos _
  stage := hs
  action k := by
    have := h.governed
    rw [k] at this
    cases this
  governed _ _ := ⟨he.trans h.engineAt.symm, .inr h.engineAt⟩
  capturing _ := ⟨h.write, h.governed, h.cut, he⟩
  slot := slot
  waiting k _ := waiting k
  broken := broken
  timer := timer
  writeAhead k _ _ _ _ := ahead k

/-- A journal at work has a current epoch, and its number is not 0. -/
theorem currentEpoch_ne_zero {s : State} (n : EpochsGoOn s) (he : s.epochs.engine = .journaling) :
    s.currentEpoch ≠ 0 := by
  have nonempty := n.1.current (by simp [he])
  have last := n.1.numbered _ (List.getLast_mem nonempty)
  have current : s.currentEpoch = (s.epochs.table.getLast nonempty).epoch := by
    unfold State.currentEpoch
    rw [List.getLast?_eq_some_getLast nonempty]
  intro k
  rw [← current, k] at last
  exact absurd last.1 (by decide)

theorem epochBroken_tables (c : BreakCause) {s : State} (h : WritesHeaders s) : TablesKept s (breakEpoch c s) := by
  have broken : TablesKept s { s with epochs.latestBroken := s.currentEpoch, epochs.breakRecording := true } :=
    .of_views rfl rfl rfl
  rw [breakEpoch_eq]
  exact (broken.trans (requestHeader_kept (by exact h) _).toTablesKept).trans (post_unread _ _).kept.toTablesKept

/-- The epoch broken, the write that broke it waits for the break to be recorded. -/
theorem breakEpoch_transit {s : State} {a : Access} (e : EngineLaw s) (m : MapLaw s) (n : EpochsGoOn s)
    (he : s.epochs.engine = .journaling) (ha : s.transit.access = some a) (hs : a.stage = .waitHeader)
    (ht : s.transit.timer = none) (hp : s.dport.burst ≠ some .transit) (h : Testing a) (c : BreakCause) :
    TransitLaw (breakEpoch c s) := by
  let t : State := { s with epochs.latestBroken := s.currentEpoch, epochs.breakRecording := true }
  have tables : TablesKept s t := .of_views rfl rfl rfl
  have waits : TransitLaw t := by
    refine transitLaw_of_access ha ?_ fun k => absurd k hp
    refine accessLaw_of_testing h he (by simp [hs]) (by simp [hs]) (by simp [hs]) (fun _ => ?_) ?_ (by simp [hs])
    · exact (currentBroken_iff t).2 ⟨currentEpoch_ne_zero (s := s) n he, rfl⟩
    · simp [t, ht, hs]
  have kept := (requestHeader_kept (s := t) (writesHeaders_of_engine (by simp [t, he])) (.brk s.currentEpoch)).trans
    (post_unread (.epochBroken s.currentEpoch c) _).kept
  rw [breakEpoch_eq]
  exact kept.transit (tables.engine e) (tables.maps e m) (tables.epochs e m n) waits

theorem setAccess_tables {s : State} (h : s.transit.access ≠ none) (a : Access) : TablesKept s (setAccess a s) :=
  .of_access rfl rfl rfl (.inr (.inl h))

theorem fullJournal_tables {s : State} (h : s.transit.access ≠ none) (he : s.epochs.engine = .journaling) (a : Access) :
    TablesKept s (fullJournal a s) := by
  unfold fullJournal
  split
  · exact (setAccess_tables h _).trans (epochBroken_tables _ (writesHeaders_of_engine (by simp [setAccess, he])))
  · dsimp only
    refine TablesKept.trans ?_ (post_unread _ _).kept.toTablesKept
    exact .of_access rfl rfl rfl (.inr (.inl h))

theorem captureTests_tables {s : State} (h : s.transit.access ≠ none) (he : s.epochs.engine = .journaling)
    (a : Access) : TablesKept s (captureTests a s) := by
  unfold captureTests
  split
  · exact setAccess_tables h _
  · split
    · exact setAccess_tables h _
    · split
      · refine (allocate_unread s).kept.toTablesKept.trans (setAccess_tables ?_ _)
        rwa [allocate_transit]
      · exact fullJournal_tables h he a

theorem captureTests_transit {s : State} {a : Access} (e : EngineLaw s) (m : MapLaw s) (n : EpochsGoOn s)
    (he : s.epochs.engine = .journaling) (ha : s.transit.access = some a) (ht : s.transit.timer = none)
    (hp : s.dport.burst ≠ some .transit) (h : Testing a) : TransitLaw (captureTests a s) := by
  have moved {b : Access} {t : State} (hb : t.transit.access = some b) (port : t.dport.burst = s.dport.burst)
      (law : AccessLaw t b) : TransitLaw t := transitLaw_of_access hb law fun k => absurd (port ▸ k) hp
  have timer : s.transit.timer.isSome = false := by rw [ht]; rfl
  by_cases broken : currentBroken s = true
  · rw [captureTests_of_broken broken]
    refine moved rfl rfl (accessLaw_of_testing { h with } he ?_ ?_ ?_ (fun _ => broken) ?_ fun k => ?_)
    · split <;> simp
    · split <;> simp
    · split <;> simp
    · split <;> simp [setAccess, timer]
    · split at k
      next => cases k
      next recorded => exact .inr ⟨broken, Bool.eq_false_of_not_eq_true recorded⟩
  · cases set : bitSet s (byteAddr a.ua) with
    | true =>
      rw [captureTests_of_set broken set]
      refine moved rfl rfl (accessLaw_of_testing { h with } he ?_ ?_ (fun _ => set) ?_ ?_ fun k => ?_)
      · split <;> simp
      · split <;> simp
      · split <;> simp
      · split <;> simp [setAccess, timer]
      · split at k
        next complete => exact .inl ⟨set, complete⟩
        next => cases k
    | false =>
      by_cases free : 2 ≤ s.free
      · rw [captureTests_of_free broken set free, startCapture_eq, lowWater_eq]
        refine moved rfl rfl (accessLaw_of_testing { h with } he ?_ ?_ ?_ ?_ ?_ ?_)
        · simp
        · simp
        · simp
        · simp
        · show s.transit.timer.isSome = true ↔ _
          simp [timer]
        · simp
      · rw [captureTests_of_full broken set (by omega)]
        unfold fullJournal
        split
        · have tables := setAccess_tables (s := s) (by rw [ha]; simp) { a with stage := .waitHeader }
          exact breakEpoch_transit (tables.engine e) (tables.maps e m) (tables.epochs e m n) he rfl rfl ht hp
            { h with } _
        · rw [post_eq]
          refine moved rfl rfl (accessLaw_of_testing { h with } he ?_ ?_ ?_ ?_ ?_ ?_)
          · simp
          · simp
          · simp
          · simp
          · simp
          · simp

/-! ## The arrival (R21 to R30) -/

/-- The tests of a capture-governed access on its arrival (R27, R30, R31). -/
theorem governed_arrival_kept {s x : State} {a : Access} (tables : TablesKept s x) (idle : TransitLaw s → Idle s)
    (hx : x.transit.access = some a) (ht : x.transit.timer = s.transit.timer) (hp : x.dport = s.dport)
    (he : x.epochs.engine = a.engineAt) (hg : a.result.action.governed = true) (hf : a.stage = .forward)
    (hc : a.cut = .no) (h0 : a.acked = 0) : LawsKept s
      (if a.engineAt.refuses then refuseAccess a a.engineAt x
        else if a.write ∧ a.engineAt = .journaling then captureTests a x else x) := by
  split
  next => exact (tables.lands (refuseAccess_lands _ _ _)).kept
  next admits =>
    have ends : a.engineAt = .offline ∨ a.engineAt = .journaling := by
      cases h : a.engineAt <;> rw [h] at admits <;> simp [Engine.refuses] at admits <;> simp
    split
    next h =>
      have he : x.epochs.engine = .journaling := he.trans h.2
      refine { tables.trans (captureTests_tables (by rw [hx]; simp) he a) with transit := fun e m n law => ?_ }
      have idle := idle law
      exact captureTests_transit (tables.engine e) (tables.maps e m) (tables.epochs e m n) he hx (ht.trans idle.timer)
        (by rw [hp]; exact idle.port) ⟨h.1, hg, h.2, hc, h0⟩
    next h =>
      refine { tables with transit := fun _ _ _ law => ?_ }
      have idle := idle law
      refine transitLaw_of_access hx ?_ fun k => absurd (hp ▸ k) idle.port
      exact
        { beats := by rw [h0]; exact beatsOf_pos _
          stage := by simp [hf]
          action := fun k => by rw [k] at hg; cases hg
          governed := fun _ _ => ⟨he, ends⟩
          capturing := fun k => absurd hf k
          slot := by simp [hf]
          waiting := by simp [hf]
          broken := by simp [hf]
          timer := by simp [hf, ht, idle.timer]
          writeAhead := fun _ k _ _ k' => absurd ⟨k, he.symm.trans k'⟩ h }

/-- An access that is not capture-governed goes straight to the memory (R27). -/
theorem free_arrival_kept {s x : State} {a : Access} (tables : TablesKept s x) (idle : TransitLaw s → Idle s)
    (hx : x.transit.access = some a) (ht : x.transit.timer = s.transit.timer) (hp : x.dport = s.dport)
    (hg : a.result.action = .pass ∨ a.result.action = .mark) (hf : a.stage = .forward) (h0 : a.acked = 0) :
    LawsKept s x := by
  refine { tables with transit := fun _ _ _ law => ?_ }
  have idle := idle law
  have free : a.result.action.governed = false := by rcases hg with h | h <;> rw [h] <;> rfl
  refine transitLaw_of_access hx ?_ fun k => absurd (hp ▸ k) idle.port
  exact
    { beats := by rw [h0]; exact beatsOf_pos _
      stage := by simp [hf]
      action := by rcases hg with h | h <;> rw [h] <;> decide
      governed := by simp [free]
      capturing := fun k => absurd hf k
      slot := by simp [hf]
      waiting := by simp [hf]
      broken := by simp [hf]
      timer := by simp [hf, ht, idle.timer]
      writeAhead := by simp [free] }

theorem arrive_kept {s : State} (ha : s.transit.access = none) (hc : s.transit.claims.cut = none) (ua : BitVec 24)
    (write burst priv : Bool) : LawsKept s (arrive ua write burst priv s) := by
  let a := sampleAccess s ua write burst priv
  let x : State := { s with transit.access := some a, transit.answers := [] }
  have tables : TablesKept s x := .of_access rfl rfl rfl (.inr (.inr hc))
  have idle (law : TransitLaw s) : Idle s := idle_of_transitLaw law ha
  rw [arrive_eq]
  show LawsKept s (dispatch a x)
  unfold dispatch
  split
  next => exact (tables.lands (answerErr_lands _ _)).kept
  next =>
    split
    next => exact ((tables.trans (post_unread _ _).kept.toTablesKept).lands (answerErr_lands _ _)).kept
    next h => exact free_arrival_kept tables idle rfl rfl rfl (.inl h) rfl rfl
    next h => exact free_arrival_kept tables idle rfl rfl rfl (.inr h) rfl rfl
    next h => exact governed_arrival_kept tables idle rfl rfl rfl rfl (by rw [h]; rfl) rfl rfl rfl
    next h => exact governed_arrival_kept tables idle rfl rfl rfl rfl (by rw [h]; rfl) rfl rfl rfl

end Sys2Proof.Machine
end

section
/-! The changes of engine state that take the access in progress out of its path, under the laws: FAULTED, FORMAT and
RECOVER (R37, R82, R140, R144). -/

namespace Sys2Proof.Machine

open Sys2Proof.Safety

/-! ## The access taken out of its path (R37, R42) -/

theorem settleCapture_kept (a : Access) (e : Engine) (s : State) : LawsKept s (settleCapture a e s) := by
  unfold settleCapture
  split
  · split
    · exact (returnSlot_unread s).kept
    · exact (returnSlot_unread s).kept
    · exact recordCapture_kept _ s
    all_goals exact .refl s
  · exact .refl s

theorem cutAccess_tables (e : Engine) (s : State) : TablesKept s (cutAccess e s) := by
  have refused {t : State} (h : LawsKept s t) (a : Access) : TablesKept s (refuseAccess a e t) :=
    (h.toTablesKept.lands (refuseAccess_lands a e t)).toTablesKept
  unfold cutAccess
  split
  next => exact (LawsKept.refl s).toTablesKept
  next a ha =>
    have held : (nextFresh s).transit.access ≠ none := by
      show s.transit.access ≠ none
      rw [ha]
      simp
    split
    next =>
      split
      next =>
        split
        next =>
          split
          next =>
            split
            next => exact (nextFresh_unread s).kept.toTablesKept.trans (setAccess_tables held _)
            next =>
              refine ((nextFresh_unread s).kept.trans (post_unread _ _).kept).toTablesKept.trans (setAccess_tables ?_ _)
              rwa [post_eq]
          next => exact refused (nextFresh_unread s).kept a
        next => exact refused (.refl s) a
      next => exact refused (settleCapture_kept a e s) a
      next => exact refused ((disownJ_unread _ s).kept.trans (settleCapture_kept a e _)) a
      next => exact refused (settleCapture_kept a e s) a
      next => exact refused (.refl s) a
      next => exact refused (.refl s) a
      next => exact (LawsKept.refl s).toTablesKept
    next => exact (LawsKept.refl s).toTablesKept

/-- An access past its capture tests, forwarded or cut, is lawful in an engine state that refuses captures. -/
theorem accessLaw_of_forward {s t : State} {a b : Access} (law : AccessLaw s a)
    (hs : a.stage = .forward) (ht : t.transit.timer.isSome = s.transit.timer.isSome)
    (hb : b.acked = a.acked ∧ b.burst = a.burst ∧ b.stage = a.stage ∧ b.result = a.result)
    (hc : b.result.action.governed = true → b.cut ≠ .no) : AccessLaw t b := by
  obtain ⟨acked, burst, stage, result⟩ := hb
  have forward : b.stage = .forward := stage.trans hs
  exact
    { beats := by rw [acked, burst]; exact law.beats
      stage := by simp [forward]
      action := by rw [result]; exact law.action
      governed := fun h k => absurd k (hc h)
      capturing := fun k => absurd forward k
      slot := by simp [forward]
      waiting := by simp [forward]
      broken := by simp [forward]
      timer := by rw [ht, stage]; exact law.timer
      writeAhead := fun _ _ h k => absurd k (hc h) }

/-- Whatever the engine has entered, the access that was lawful before is lawful once it has been cut. -/
theorem cutAccess_transit {s t : State} (law : TransitLaw s) (h : accessView t = accessView s) {e : Engine}
    (he : e.refuses = true) : TransitLaw (cutAccess e t) := by
  simp only [accessView, Prod.mk.injEq, decide_eq_decide] at h
  obtain ⟨ha, timer, port⟩ := h
  have refused {u : State} (a : Access) : TransitLaw (refuseAccess a e u) := (refuseAccess_idle a e u).transitLaw
  cases hs : s.transit.access with
  | none =>
    have idle : Idle t := (idle_of_transitLaw law hs).of_view (by simp [accessView, ha, timer, port])
    unfold cutAccess
    rw [idle.access]
    exact idle.transitLaw
  | some a =>
    rw [hs] at ha
    have lawful := law.access a hs
    have onPort (k : t.dport.burst = some .transit) : a.stage = .forward ∨ a.stage = .readOld := by
      obtain ⟨b, hb, stage⟩ := law.port (port.1 k)
      rw [hs] at hb
      cases hb
      exact stage
    unfold cutAccess
    simp only [ha]
    split
    next =>
      split
      next stage =>
        split
        next =>
          split
          next =>
            split
            next =>
              refine transitLaw_of_access rfl ?_ fun _ => .inl stage
              exact accessLaw_of_forward lawful stage timer ⟨rfl, rfl, rfl, rfl⟩ fun _ => by simp
            next =>
              rw [post_eq]
              refine transitLaw_of_access rfl ?_ fun _ => .inl stage
              exact accessLaw_of_forward lawful stage timer ⟨rfl, rfl, rfl, rfl⟩ fun _ => by simp
          next => exact refused a
        next => exact refused a
      next => exact refused a
      next => exact refused a
      next => exact refused a
      next => exact refused a
      next => exact refused a
      next stage => exact absurd stage lawful.stage
    next free =>
      have uncut (hg : a.result.action.governed = true) : a.cut ≠ .no := fun hc => free ⟨hc, hg, he⟩
      have forward : a.stage = .forward := by
        by_contra k
        obtain ⟨-, hg, hc, -⟩ := lawful.capturing k
        exact uncut hg hc
      exact transitLaw_of_access ha (accessLaw_of_forward lawful forward timer ⟨rfl, rfl, rfl, rfl⟩ uncut) onPort

/-- The engine enters a state that refuses captures, and the access in progress is cut. -/
theorem entered_kept {s t : State} (tables : TablesKept s t) (h : accessView t = accessView s) {e : Engine}
    (he : e.refuses = true) : LawsKept s (cutAccess e t) where
  toTablesKept := tables.trans (cutAccess_tables e t)
  transit _ _ _ law := cutAccess_transit law h he

/-! ## FAULTED (R82) -/

theorem enterFaulted_kept {s : State} (he : s.epochs.engine.faults = true) : LawsKept s (enterFaulted s) := by
  rw [faults_iff] at he
  rw [enterFaulted_eq]
  unfold faulted
  have he' : s.epochs.engine ≠ .recovering ∧ s.epochs.engine ≠ .formatting ∧ s.epochs.engine ∉ [.offline, .recovering] := by
    simp only [List.mem_cons, List.not_mem_nil, or_false] at he
    rcases he with h | h | h | h <;> simp [h]
  obtain ⟨hr, hf, hp⟩ := he'
  refine entered_kept ?tables ?view ?refuses
  case view => rfl
  case refuses => rfl
  exact
    { engine := fun law =>
        { law with
          walk := by simp [Walker.powerOn]
          recovery := by simp [recovery_idle law hr]
          format := by simp [format_idle law hf]
          formatMarker := by simp
          claimedIn := by simp
          mark := by simp
          marks := by simp
          checkpoint := by simp
          absent := by simp
          present := fun _ => law.present hp
          unwritten := by simp
          read := by simp }
      maps := fun _ m => { m with active := by simp, cutIn := by simp, cutClean := by simp }
      epochs := fun _ _ n =>
        ⟨{ n.1 with cut := by simp, current := by simp },
         { cut := by simp, walk := fun h => n.2.walk (.inl (by simpa [Walker.powerOn] using h)) }⟩ }

/-! ## FORMAT and RECOVER accepted (R140, R144) -/

/-- What the acceptance of FORMAT changes of the state that the laws read. -/
def formatBegun (g : Geometry) (s : State) : State :=
  { s with
    epochs.engine := .formatting
    epochs.table := []
    epochs.lastUsed := 0
    epochs.latestBroken := 0
    epochs.breakRecording := false
    epochs.pendingMark := 0
    epochs.ckptInFlight := false
    epochs.startClaimed := false
    epochs.format := .sweep
    journal.geometry := some g
    journal.marker := .none
    journal.header.next := []
    journal.header.inFlight := (s.journal.header.inFlight.map fun j => { j with requests := [], kind := .abandoned })
    maps := installWindow g.window s.maps }

theorem formatBegun_tables {s : State} {g : Geometry} (h : formatRefusal g s = none) : TablesKept s (formatBegun g s) := by
  rw [formatRefusal_eq] at h
  simp only [ite_eq_iff, reduceCtorEq, and_false, false_or, not_not] at h
  obtain ⟨⟨he, hs⟩, -⟩ := h
  have he' : s.epochs.engine ≠ .rollingBack ∧ s.epochs.engine ≠ .recovering := by
    simp only [List.mem_cons, List.not_mem_nil, or_false] at he
    rcases he with h | h | h | h <;> simp [h]
  obtain ⟨hw, hr⟩ := he'
  exact
    { engine := fun law =>
        { law with
          walk := by simp [formatBegun, walker_stopped law hw]
          recovery := by simp [formatBegun, recovery_idle law hr]
          format := by simp [formatBegun]
          copyA := fun j hj hk => by
            obtain ⟨i, -, rfl⟩ := Option.map_eq_some_iff.1 hj
            cases hk
          copyB := fun j hj hk => by
            obtain ⟨i, -, rfl⟩ := Option.map_eq_some_iff.1 hj
            cases hk
          formatMarker := by simp [formatBegun]
          claimed := hs.symm.trans law.claimed
          claimedIn := by simp [formatBegun]
          mark := by simp [formatBegun]
          marks := by simp [formatBegun]
          checkpoint := by simp [formatBegun]
          window := installWindow_window _ _
          absent := by simp [formatBegun]
          present := by simp [formatBegun]
          unwritten := by simp [formatBegun]
          read := by simp [formatBegun] }
      maps := fun law m => by
        have sweeps := (sweepsLawful_of_mapLaw m).installWindow g.window
        exact
          { one := not_both_of_get (i := .m0) (by
              show ((installWindow g.window s.maps).get .m0).state ≠ _
              rw [get_installWindow]
              simp)
            active := by simp [formatBegun]
            running := sweeps.running
            queued := sweeps.queued
            sweeping := sweeps.sweeping
            formatting := by simp [formatBegun]
            scanning := by simp [formatBegun, recovery_idle law hr]
            loading := by simp [formatBegun, recovery_idle law hr]
            cutIn := by simp [formatBegun]
            cutClean := by simp [formatBegun] }
      epochs := fun law _ _ =>
        ⟨{  room := by simp [formatBegun]
            rising := by simp [formatBegun]
            numbered := by simp [formatBegun]
            cut := by simp [formatBegun]
            current := by simp [formatBegun]
            formatted := by simp [formatBegun]
            rebuilt := by simp [formatBegun, recovery_idle law hr]
            scanned := by simp [formatBegun, recovery_idle law hr] },
         ⟨by simp [formatBegun], by simp [formatBegun]⟩⟩ }

theorem acceptFormat_kept {s : State} {g : Geometry} (h : formatRefusal g s = none) : LawsKept s (acceptFormat g s) := by
  unfold acceptFormat
  dsimp only
  rw [abandonHeader_eq, disownJ_eq, answer_eq]
  refine entered_kept ?tables ?view ?refuses
  case tables =>
    refine (formatBegun_tables h).trans (LawsKept.toTablesKept (Unread.kept ?_))
    rfl
  case view => rfl
  case refuses => rfl

theorem acceptRecover_kept {s : State} (he : s.epochs.engine = .offline) : LawsKept s (acceptRecover s) := by
  unfold acceptRecover
  dsimp only
  refine (answer_unread .accepted [] s).kept.trans ?_
  have he : (answer .accepted [] s).epochs.engine = .offline := by rw [answer_eq]; exact he
  generalize answer .accepted [] s = s at he
  refine entered_kept ?tables ?view ?refuses
  case view => rfl
  case refuses => rfl
  exact
    { engine := fun law =>
        { law with
          walk := by simp [walker_stopped law, he]
          recovery := by simp
          format := by simp [format_idle law, he]
          formatMarker := by simp
          claimedIn := by simp [no_start_claimed law, he]
          mark := by simp [no_mark_pending law, he]
          checkpoint := by simp [no_ckpt_in_flight law, he]
          absent := by simp
          present := by simp
          unwritten := fun _ => by
            obtain ⟨marker, header⟩ := law.unwritten (by simp [he])
            exact ⟨marker, fun _ => header (by simp [recovery_idle law, he])⟩
          read := fun _ => by simpa using law.absent he }
      maps := fun law m =>
        { m with
          active := by simp
          scanning := by simp
          loading := by simp
          cutIn := fun h => absurd he (m.cutIn h).1
          cutClean := by simp }
      epochs := fun _ _ n =>
        ⟨{ n.1 with cut := by simp, current := by simp, rebuilt := by simp, scanned := by simp }, { n.2 with }⟩ }

end Sys2Proof.Machine
end

section
/-! The rollback walk, the MARKER's write and FORMAT's stages under the laws (R74, R121 to R135, R141, R142). -/

namespace Sys2Proof.Machine

open Sys2Proof.Safety

/-! ## The walk (R121 to R134) -/

theorem setWalker_kept {s : State} {w : Walker} (hs : s.epochs.walker.state ∈ [.waitStart, .read, .writeBack])
    (hw : w.state ∈ [.waitStart, .read, .writeBack]) : LawsKept s (setWalker w s) := by
  have going : s.epochs.walker.state ≠ .stopped := by intro k; rw [k] at hs; simp at hs
  have goes : w.state ≠ .stopped := by intro k; rw [k] at hw; simp at hw
  exact
    { engine := fun law => { law with walk := ⟨fun _ => goes, fun _ => law.walk.2 going⟩ }
      maps := fun _ m => mapLaw_of_view m rfl
      epochs := fun _ _ n => ⟨{ n.1 with }, { n.2 with walk := fun _ => n.2.walk (.inr hs) }⟩
      transit := fun _ _ _ law => transitLaw_of_view law rfl rfl }

theorem walkBegin_kept {s : State} (h : s.epochs.walker.state = .waitStart) : LawsKept s (walkBegin s) :=
  setWalker_kept (by simp [h]) (by simp)

theorem halt_kept {s : State} (he : s.epochs.engine = .rollingBack) (c : HaltCause) (slot : Nat) :
    LawsKept s (halt c slot s) := by
  have halted : LawsKept s (s.setEpochs { s.epochs with engine := .held, walker := s.epochs.walker.stop }) :=
    { engine := fun law =>
        { law with
          walk := by simp [Walker.stop, Walker.powerOn]
          recovery := by simp [recovery_idle law, he]
          format := by simp [format_idle law, he]
          formatMarker := by simp
          claimedIn := by simp
          mark := by simp [no_mark_pending law, he]
          checkpoint := by simp [no_ckpt_in_flight law, he]
          absent := by simp
          present := fun _ => law.present (by simp [he])
          unwritten := by simp
          read := by simp }
      maps := fun _ m =>
        { m with
          active := fun _ => m.active (by simp [he])
          cutIn := fun h => ⟨by simp, by simp, fun k => absurd ((m.cutIn h).2.2 k) (by simp [he])⟩
          cutClean := by simp }
      epochs := fun _ _ n =>
        ⟨{ n.1 with
            cut := by simp
            current := fun _ => n.1.current (by simp [he]) },
         { n.2 with walk := fun h => n.2.walk (.inl (by simpa [Walker.stop, Walker.powerOn] using h)) }⟩
      transit := fun _ _ _ law => transitLaw_of_refusing law rfl (by simp [he]) }
  unfold halt
  dsimp only
  split
  · exact (halted.trans (post_unread _ _).kept).trans (answer_unread _ _ _).kept
  · exact halted.trans (post_unread _ _).kept

/-- In the walk's states before the arrival the engine is in ROLLING_BACK. -/
theorem rollingBack_of_walking {s : State} (law : EngineLaw s) {w : WalkerState} (h : s.epochs.walker.state = w)
    (hw : w ≠ .stopped) : s.epochs.engine = .rollingBack :=
  law.walk.2 (by rwa [h])

theorem endStep_kept {s : State} {w : Walker} (he : s.epochs.engine = .rollingBack)
    (hs : s.epochs.walker.state ∈ [.waitStart, .read, .writeBack]) : LawsKept s (endStep w s) := by
  unfold endStep
  split
  · exact halt_kept he _ _
  · exact setWalker_kept hs (by simp)

/-- What the arrival at the target changes of the state that the laws read. -/
def targetReached (e : Entry) (j : MarkerJob) (s : State) : State :=
  { s with
    epochs.lastUsed := s.epochs.lastUsed + 1
    epochs.table := (s.epochs.table.filter fun x => decide (x.epoch < s.epochs.walker.target)) ++ [e]
    epochs.walker.state := .reopen
    journal.marker := .inFlight j }

/-- The entries below the target are fewer than the table's, so the reopened epoch finds room. -/
theorem targetReached_kept {s : State} (hr : s.epochs.walker.state = .read) {x : Entry} (hx : x ∈ s.epochs.table)
    (ht : x.epoch = s.epochs.walker.target) {e : Entry} (hn : e.epoch = s.epochs.lastUsed + 1) (j : MarkerJob) :
    LawsKept s (targetReached e j s) := by
  refine .of_law fun law => ?_
  have he := rollingBack_of_walking law hr (by simp)
  exact
    { engine := fun law =>
        { law with
          walk := by simp [targetReached, he]
          formatMarker := by simp [targetReached, he]
          unwritten := by simp [targetReached, he] }
      maps := fun _ m => mapLaw_of_view m rfl
      epochs := fun law _ n => by
        have left := n.2.walk (.inr (by simp [hr]))
        obtain ⟨rising, numbered⟩ := table_append
          (n.1.rising.sublist ((List.filter_sublist (p := fun x => decide (x.epoch < s.epochs.walker.target))).map _))
          (fun y hy => n.1.numbered y (List.mem_of_mem_filter hy)) left hn
        have fewer : (s.epochs.table.filter fun x => decide (x.epoch < s.epochs.walker.target)).length <
            s.epochs.table.length :=
          List.length_filter_lt_length_iff_exists.2 ⟨x, hx, by simp [ht]⟩
        have room := n.1.room
        exact
          ⟨{  room := by simp only [targetReached, List.length_append, List.length_cons, List.length_nil]; omega
              rising := rising
              numbered := numbered
              cut := by simp [targetReached, he]
              current := by simp [targetReached]
              formatted := by simp [targetReached, format_idle law, he]
              rebuilt := by simp [targetReached]
              scanned := by simp [targetReached, recovery_idle law, he] },
           { cut := by simp [targetReached, no_ckpt_in_flight law, he]
             walk := by simp [targetReached, no_start_claimed law, he] }⟩
      transit := fun _ _ _ law => transitLaw_of_refusing law rfl (by simp [he]) }

theorem arriveTarget_kept {s : State} (hr : s.epochs.walker.state = .read) {e : Entry} (hx : e ∈ s.epochs.table)
    (ht : e.epoch = s.epochs.walker.target) : LawsKept s (arriveTarget e s) := by
  refine .of_law fun law => ?_
  have he := rollingBack_of_walking law hr (by simp)
  obtain ⟨g, hg⟩ := Option.isSome_iff_exists.1 (law.present (by simp [he]))
  have eq := arriveTarget_eq hg e
  dsimp only at eq
  rw [eq, lowWater_eq]
  exact (targetReached_kept (e := ⟨s.epochs.lastUsed + 1, e.slot, s.journal.sequence, 0, .reopen⟩) hr hx ht rfl
    ⟨s.epochs.lastUsed + 1, e.slot, .reopen, .reopen, 0, markerRecord g.identity s.journal.sequence
      (s.epochs.lastUsed + 1) .reopen 0 s.epochs.walker.target, 0⟩).trans (Unread.kept rfl)

theorem walkMarker_kept {s : State} (he : s.epochs.engine = .rollingBack) (hr : s.epochs.walker.state = .read)
    {e : Entry} (hx : e ∈ s.epochs.table) : LawsKept s (walkMarker e s) := by
  unfold walkMarker
  dsimp only
  split
  next ht =>
    split
    · exact halt_kept he _ _
    · exact arriveTarget_kept hr hx ht
  next =>
    split
    · exact halt_kept he _ _
    · exact endStep_kept he (by simp [hr])

theorem walkSlot_kept {s : State} (he : s.epochs.engine = .rollingBack) (hr : s.epochs.walker.state = .read)
    (bs : List Byte) : LawsKept s (walkSlot bs s) := by
  unfold walkSlot
  dsimp only
  split
  next => exact halt_kept he _ _
  next e h =>
    split
    · split
      · exact walkMarker_kept he hr (List.mem_of_getElem? h)
      · exact setWalker_kept (by simp [hr]) (by simp)
    · exact halt_kept he _ _

/-! ## The MARKER's write (R74) -/

theorem markerComplete_of_epoch {s t : State} {e : Word} {i j : MarkerJob} (hs : s.journal.marker = .inFlight i)
    (ht : t.journal.marker = .inFlight j ∨ t.journal.marker = .failed j.epoch j.slot) (h : j.epoch = i.epoch) :
    markerComplete t e = markerComplete s e := by
  rcases ht with ht | ht <;> simp [markerComplete, hs, ht, h]

/-- The MARKER in flight goes on or fails: its epoch stands as it stood. -/
theorem marker_moved_kept {s : State} {j i : MarkerJob} (hm : s.journal.marker = .inFlight j) (hj : i.epoch = j.epoch)
    {m : MarkerWrite} (h : m = .inFlight i ∨ m = .failed i.epoch i.slot) : LawsKept s (setMarker m s) where
  engine law :=
    { law with
      formatMarker := fun k he _ => law.formatMarker j he hm
      unwritten := fun h => by
        have := (law.unwritten h).1
        rw [hm] at this
        cases this }
  maps _ m := mapLaw_of_view m rfl
  epochs _ _ n := n.of_view rfl
  transit _ _ _ law := transitLaw_of_kept law rfl rfl (fun _ => id) rfl rfl
    (fun k => (markerComplete_of_epoch hm h hj).trans k) id

/-- No MARKER is in flight any more. -/
theorem marker_ended_kept (s : State) : LawsKept s (setMarker .none s) where
  engine law :=
    { law with
      formatMarker := fun _ _ h => by cases h
      unwritten := fun h => ⟨rfl, (law.unwritten h).2⟩ }
  maps _ m := mapLaw_of_view m rfl
  epochs _ _ n := n.of_view rfl
  transit _ _ _ law := transitLaw_of_kept law rfl rfl (fun _ => id) rfl rfl (fun _ => rfl) id

/-! ## FORMAT's stages (R141, R142) -/

/-- No header copy of FORMAT's own is in flight. -/
def NoFormatCopy (s : State) : Prop :=
  ∀ j : HeaderJob, s.journal.header.inFlight = some j → j.kind ≠ .formatA ∧ j.kind ≠ .formatB

theorem noFormatCopy_of_stage {s : State} (law : EngineLaw s) (h : s.epochs.format ∉ [.copyA, .copyB]) :
    NoFormatCopy s := by
  simp only [List.mem_cons, List.not_mem_nil, or_false, not_or] at h
  exact fun j hj => ⟨fun k => h.1 (law.copyA j hj k), fun k => h.2 (law.copyB j hj k)⟩

theorem formatFail_kept {s : State} (he : s.epochs.engine = .formatting) (hj : NoFormatCopy s) :
    LawsKept s (formatFail s) := by
  refine LawsKept.trans ?_ (post_unread _ _).kept
  exact
    { engine := fun law =>
        { law with
          walk := by simp [walker_stopped law, he]
          recovery := by simp [recovery_idle law, he]
          format := by simp
          copyA := fun j h k => absurd k (hj j h).1
          copyB := fun j h k => absurd k (hj j h).2
          formatMarker := by simp
          claimedIn := by simp
          mark := by simp [no_mark_pending law, he]
          checkpoint := by simp [no_ckpt_in_flight law, he]
          absent := by simp
          present := fun _ => law.present (by simp [he])
          unwritten := by simp
          read := by simp }
      maps := fun _ m => { m with active := by simp, formatting := by simp, cutIn := by simp, cutClean := by simp }
      epochs := fun _ _ n => ⟨{ n.1 with cut := by simp, current := by simp, formatted := by simp }, { n.2 with }⟩
      transit := fun _ _ _ law => transitLaw_of_refusing law rfl (by simp [he]) }

/-- FORMAT goes on to one of its header copies. -/
theorem setFormat_kept {s : State} {f : FormatStage} (he : s.epochs.engine = .formatting)
    (hs : s.epochs.format ∈ [.marker, .copyA, .copyB]) (hf : f ∈ [.copyA, .copyB])
    (hj : ∀ j : HeaderJob, s.journal.header.inFlight = some j →
      (j.kind = .formatA → f = .copyA) ∧ (j.kind = .formatB → f = .copyB))
    (hm : ∀ j : MarkerJob, s.journal.marker ≠ .inFlight j) : LawsKept s (setFormat f s) where
  engine law :=
    { law with
      format := by
        refine ⟨fun _ k => ?_, fun _ => he⟩
        rw [show f = .idle from k] at hf
        simp at hf
      copyA := fun j h => (hj j h).1
      copyB := fun j h => (hj j h).2
      formatMarker := fun j _ h => absurd h (hm j) }
  maps _ m := { m with formatting := fun _ => m.formatting hs }
  epochs _ _ n := ⟨{ n.1 with formatted := fun _ => n.1.formatted hs }, { n.2 with }⟩
  transit _ _ _ law := transitLaw_of_view law rfl rfl

theorem formatCopyA_kept {s : State} (he : s.epochs.engine = .formatting)
    (h : s.epochs.format = .copyA ∨ (s.epochs.format = .marker ∧ s.journal.marker = .none)) :
    LawsKept s (formatCopyA s) := by
  refine .of_law fun law => ?_
  have unmarked (j : MarkerJob) : s.journal.marker ≠ .inFlight j := by
    intro k
    have stage := law.formatMarker j he k
    rcases h with h | h
    · rw [h] at stage; cases stage
    · rw [h.2] at k; cases k
  have staged : LawsKept s (setFormat .copyA s) := by
    refine setFormat_kept he ?_ (by simp) (fun j hj => ⟨fun _ => rfl, fun k => ?_⟩) unmarked
    · rcases h with h | h
      · simp [h]
      · simp [h.1]
    · have stage := law.copyB j hj k
      rcases h with h | h
      · rw [h] at stage; cases stage
      · rw [h.1] at stage; cases stage
  unfold formatCopyA
  split
  · exact staged.trans (beginHeader_kept (writesHeaders_of_engine (by simp [setFormat, he])) (fun _ => rfl)
      (by simp) _ _ _)
  · exact staged

theorem resumeFormat_kept (s : State) : LawsKept s (resumeFormat s) := by
  unfold resumeFormat
  split
  next h => exact formatCopyA_kept h.1 (.inl h.2)
  next => exact .refl s

/-- What the marker stage of FORMAT changes of the state that the laws read. -/
def formatMarked (e : Entry) (j : MarkerJob) (s : State) : State :=
  { s with epochs.table := [e], epochs.lastUsed := 1, epochs.format := .marker, journal.marker := .inFlight j }

theorem formatMarked_kept {s : State} (hf : s.epochs.format = .sweep) (h0 : s.maps.m0.state = .clean)
    (h1 : s.maps.m1.state = .clean) {e : Entry} (hn : e.epoch = 1) (j : MarkerJob) :
    LawsKept s (formatMarked e j s) := by
  refine .of_law fun law => ?_
  have he : s.epochs.engine = .formatting := law.format.2 (by simp [hf])
  have none := noFormatCopy_of_stage law (by simp [hf])
  exact
    { engine := fun law =>
        { law with
          format := by simp [formatMarked, he]
          copyA := fun j h k => absurd k (none j h).1
          copyB := fun j h k => absurd k (none j h).2
          formatMarker := fun _ _ _ => rfl
          unwritten := by simp [formatMarked, he] }
      maps := fun _ m => { m with formatting := fun _ => ⟨h0, h1⟩ }
      epochs := fun law _ _ =>
        ⟨{  room := by simp [formatMarked]
            rising := by simp [formatMarked]
            numbered := by simp [formatMarked, hn]
            cut := by simp [formatMarked]
            current := by simp [formatMarked]
            formatted := by simp [formatMarked]
            rebuilt := by simp [formatMarked]
            scanned := by simp [formatMarked, recovery_idle law, he] },
         ⟨by simp [formatMarked], by simp [formatMarked]⟩⟩
      transit := fun _ _ _ law => transitLaw_of_refusing law rfl (by simp [he]) }

theorem formatMarker_kept {s : State} (hf : s.epochs.format = .sweep) (h0 : s.maps.m0.state = .clean)
    (h1 : s.maps.m1.state = .clean) : LawsKept s (formatMarker s) := by
  refine .of_law fun law => ?_
  have he : s.epochs.engine = .formatting := law.format.2 (by simp [hf])
  obtain ⟨g, hg⟩ := Option.isSome_iff_exists.1 (law.present (by simp [he]))
  rw [formatMarker_eq hg]
  exact (formatMarked_kept (e := ⟨1, 0, 1, 0, .format⟩) hf h0 h1 rfl
    ⟨1, 0, .format, .format, 0, markerRecord g.identity 1 1 .format 0 0, 0⟩).trans (Unread.kept rfl)

/-- FORMAT ends with both maps CLEAN and one epoch in the table, so the journal is at work at once. -/
theorem formatDone_kept {s : State} (hf : s.epochs.format ∈ [.marker, .copyA, .copyB]) (hj : NoFormatCopy s) :
    LawsKept s (formatDone s) := by
  refine LawsKept.trans ?_ (post_unread _ _).kept
  refine .of_law fun law => ?_
  have he : s.epochs.engine = .formatting := law.format.2 (by intro k; rw [k] at hf; simp at hf)
  exact
    { engine := fun law =>
        { law with
          walk := by simp [walker_stopped law, he]
          recovery := by simp [recovery_idle law, he]
          format := by simp
          copyA := fun j h k => absurd k (hj j h).1
          copyB := fun j h k => absurd k (hj j h).2
          formatMarker := by simp
          claimedIn := by simp
          mark := by simp [no_mark_pending law, he]
          checkpoint := by simp [no_ckpt_in_flight law, he]
          window := (setState_window _ _ _).trans law.window
          absent := by simp
          present := fun _ => law.present (by simp [he])
          unwritten := by simp
          read := by simp }
      maps := fun law m => by
        obtain ⟨h0, h1⟩ := m.formatting hf
        have sweeps := (sweepsLawful_of_mapLaw m).setState (i := .m0) (x := .active)
          (by show s.maps.m0.state ≠ _; rw [h0]; decide) (by decide)
        exact
          { one := fun k => by
              have : s.maps.m1.state = .active := k.2
              rw [h1] at this
              cases this
            active := fun _ => .inl rfl
            running := sweeps.running
            queued := sweeps.queued
            sweeping := sweeps.sweeping
            formatting := by simp
            scanning := by simp [recovery_idle law, he]
            loading := by simp [recovery_idle law, he]
            cutIn := by simp
            cutClean := fun _ _ => .inr h1 }
      epochs := fun _ _ n => by
        have one := n.1.formatted hf
        exact
          ⟨{ n.1 with
              cut := fun _ _ => by show s.epochs.table.length < 16; omega
              current := fun _ k => by
                have : s.epochs.table = [] := k
                rw [this] at one
                cases one
              formatted := by simp }, { n.2 with }⟩
      transit := fun _ _ _ law => transitLaw_of_refusing law rfl (by simp [he]) }

end Sys2Proof.Machine
end

section
/-! The ends of MARKER writes, header writes and sweeps under the laws (R54, R74, R77, R78, R135, R136). -/

namespace Sys2Proof.Machine

open Sys2Proof.Safety

/-! ## SETTLING (R54, R55, R135, R136) -/

/-- The walk has reopened its target: SETTLING begins with the settling swap (R55, R135). -/
theorem settlingBegun_kept {s : State} (he : s.epochs.engine = .rollingBack) : LawsKept s { s with
    epochs.walker := s.epochs.walker.stop, epochs.engine := .settling, epochs.pendingTarget := 0
    epochs.settleDone := false, maps := swapMaps s.maps } where
  engine law :=
    { law with
      walk := by simp [Walker.stop, Walker.powerOn]
      recovery := by simp [recovery_idle law, he]
      format := by simp [format_idle law, he]
      formatMarker := by simp
      claimedIn := by simp [no_start_claimed law, he]
      mark := by simp [no_mark_pending law, he]
      checkpoint := by simp [no_ckpt_in_flight law, he]
      window := (swapMaps_keeps_window _).trans law.window
      absent := by simp
      present := fun _ => law.present (by simp [he])
      unwritten := by simp
      read := by simp }
  maps law m := by
    obtain ⟨g, hg⟩ := Option.isSome_iff_exists.1 (law.present (by simp [he]))
    have hw : s.maps.window = some g.window := by rw [law.window, hg]; rfl
    obtain ⟨i, hi⟩ := Option.ne_none_iff_exists'.1 ((find_ne_none s.maps .active).2 (m.active (by simp [he])))
    have sweeps := (sweepsLawful_of_mapLaw m).swapMaps hw hi
    have swept := get_swapMaps_active (by simp [hw]) hi
    exact
      { one := not_both_of_get (i := i) (by show ((swapMaps s.maps).get i).state ≠ _; rw [swept]; decide)
        active := by simp
        running := sweeps.running
        queued := sweeps.queued
        sweeping := sweeps.sweeping
        formatting := by simp [format_idle law, he]
        scanning := by simp [recovery_idle law, he]
        loading := by simp [recovery_idle law, he]
        cutIn := fun h => ⟨by simp, by simp, fun k => absurd ((m.cutIn h).2.2 k) (by simp [he])⟩
        cutClean := by simp }
  epochs law _ n :=
    ⟨{ n.1 with
        cut := by simp
        current := fun _ => n.1.current (by simp [he]) },
     { n.2 with walk := fun h => n.2.walk (.inl (by simpa [Walker.stop, Walker.powerOn] using h)) }⟩
  transit _ _ _ law := transitLaw_of_refusing law rfl (by simp [he])

/-- A header request and a change of the maps do not meet. -/
theorem setMaps_requestHeader {s : State} (h : s.epochs.engine ≠ .faulted) (r : HeaderRequest) (m : CaptureMaps) :
    (requestHeader r s).setMaps m = requestHeader r (s.setMaps m) := by
  cases hj : s.journal.header.inFlight with
  | none =>
    rw [requestHeader_of_free h hj, requestHeader_of_free (s := s.setMaps m) h hj]
    rfl
  | some j =>
    rw [requestHeader_of_busy h hj, requestHeader_of_busy (s := s.setMaps m) h hj]
    rfl

theorem requestHeader_maps {s : State} (h : s.epochs.engine ≠ .faulted) (r : HeaderRequest) :
    (requestHeader r s).maps = s.maps := by
  cases hj : s.journal.header.inFlight with
  | none => rw [requestHeader_of_free h hj]; rfl
  | some j => rw [requestHeader_of_busy h hj]; rfl

theorem reopenComplete_kept {s : State} (he : s.epochs.engine = .rollingBack) : LawsKept s (reopenComplete s) := by
  unfold reopenComplete
  dsimp only
  rw [requestHeader_maps (by simp), setMaps_requestHeader (by simp)]
  exact (settlingBegun_kept he).trans (requestHeader_kept (writesHeaders_of_engine (by simp)) _)

/-- SETTLING ends with a map ACTIVE and no claim of a cut left over (R136). -/
theorem finishSettling_kept {s : State} (hs : settled s) : LawsKept s (finishSettling s) := by
  unfold finishSettling
  split
  next h =>
    obtain ⟨he, -, active⟩ := h
    have none_waits (m : MapLaw s) : s.transit.claims.cut.isSome ≠ true := by
      intro cut
      have no_access : s.transit.access = none := by
        by_contra k
        have := (m.cutIn cut).2.2 k
        simp [he] at this
      rw [hs no_access] at cut
      cases cut
    refine LawsKept.trans ?_ (post_unread _ _).kept
    exact
      { engine := fun law =>
          { law with
            walk := by simp [setEngine, walker_stopped law, he]
            recovery := by simp [setEngine, recovery_idle law, he]
            format := by simp [setEngine, format_idle law, he]
            formatMarker := by simp [setEngine]
            claimedIn := by simp [setEngine]
            mark := by simp [setEngine, no_mark_pending law, he]
            checkpoint := by simp [setEngine, no_ckpt_in_flight law, he]
            absent := by simp [setEngine]
            present := fun _ => law.present (by simp [he])
            unwritten := by simp [setEngine]
            read := by simp [setEngine] }
        maps := fun _ m =>
          { m with
            active := fun _ => (find_active_ne_none _).1 active
            cutIn := fun h => absurd h (none_waits m)
            cutClean := fun h => absurd h (none_waits m) }
        epochs := fun _ m n =>
          ⟨{ n.1 with
              cut := fun h => absurd h (none_waits m)
              current := fun _ => n.1.current (by simp [he]) }, { n.2 with }⟩
        transit := fun _ _ _ law => transitLaw_of_refusing law rfl (by simp [he]) }
  next => exact .refl s

theorem settleMap_kept {s : State} (he : s.epochs.engine = .settling) {i : MapId}
    (hi : (s.maps.get i).state = .clean) : LawsKept s (settleMap i s) := by
  unfold settleMap
  split
  next inactive =>
    exact
      { engine := fun law => { law with window := (setState_window _ _ _).trans law.window }
        maps := fun law m => by
          have sweeps := (sweepsLawful_of_mapLaw m).setState (i := i) (x := .active) (by rw [hi]; decide) (by decide)
          have other {j : MapId} (hj : j ≠ i) : ((s.maps.setState i .active).get j).state ≠ .active := by
            rw [get_setState, if_neg hj]
            exact fun k => (find_ne_none s.maps .active).2 (state_of_get k) inactive
          exact
            { one := by
                cases i with
                | m0 => exact not_both_of_get (i := .m1) (other (by decide))
                | m1 => exact not_both_of_get (i := .m0) (other (by decide))
              active := by simp [he]
              running := sweeps.running
              queued := sweeps.queued
              sweeping := sweeps.sweeping
              formatting := by simp [format_idle law, he]
              scanning := by simp [recovery_idle law, he]
              loading := by simp [recovery_idle law, he]
              cutIn := m.cutIn
              cutClean := by simp [he] }
        epochs := fun _ _ n => n.of_view rfl
        transit := fun _ _ _ law => transitLaw_of_refusing law rfl (by simp [he]) }
  next => exact .refl s

/-! ## The MARKER's end (R74, R82, R142) -/

theorem releaseWaitMarker_journal (s : State) : (releaseWaitMarker s).journal = s.journal := by
  unfold releaseWaitMarker
  split
  · rfl
  · split
    · split <;> rfl
    · rfl

/-- A write that goes on with its MARKER raises an undo count at most: the rest of the Epoch Controller stands. -/
theorem releaseWaitMarker_epochs (s : State) :
    ∃ table, (releaseWaitMarker s).epochs = { s.epochs with table := table } := by
  unfold releaseWaitMarker
  split
  · exact ⟨_, rfl⟩
  · split
    · split
      · exact ⟨_, rfl⟩
      · exact ⟨_, rfl⟩
    · exact ⟨_, rfl⟩

theorem markerDone_kept {s : State} {j : MarkerJob} (hm : s.journal.marker = .inFlight j) :
    LawsKept s (markerDone j s) := by
  refine .of_law fun law => ?_
  have released : LawsKept s (releaseWaitMarker (setMarker .none s)) :=
    (marker_ended_kept s).trans (releaseWaitMarker_kept rfl)
  have unmarked := congrArg Journal.marker (releaseWaitMarker_journal (setMarker .none s))
  obtain ⟨table, epochs⟩ := releaseWaitMarker_epochs (setMarker .none s)
  have engine : s.epochs.engine ∉ [.offline, .recovering] := by
    intro k
    have := (law.unwritten k).1
    rw [hm] at this
    cases this
  unfold markerDone
  dsimp only
  split
  next => exact released.trans (requestHeader_kept (writesHeaders_of_engine (by rw [epochs]; exact engine)) _)
  next =>
    split
    next h =>
      exact released.trans (formatCopyA_kept (by rw [epochs]; exact h.1) (.inr ⟨by rw [epochs]; exact h.2, unmarked⟩))
    next => exact released
  next =>
    split
    next h => exact released.trans (reopenComplete_kept (by rw [epochs]; exact h.1))
    next => exact released

theorem markerFailed_kept {s : State} {j : MarkerJob} (hm : s.journal.marker = .inFlight j) :
    LawsKept s (markerFailed j s) := by
  refine .of_law fun law => ?_
  have failed : LawsKept s (setMarker (.failed j.epoch j.slot) s) := marker_moved_kept hm rfl (.inr rfl)
  unfold markerFailed
  dsimp only
  split
  next he =>
    have free : NoFormatCopy s := noFormatCopy_of_stage law (by rw [law.formatMarker j he hm]; decide)
    exact failed.trans (formatFail_kept he free)
  next =>
    split
    next h => exact failed.trans (enterFaulted_kept h)
    next => exact failed

end Sys2Proof.Machine
end

section
/-! The ends of header writes and sweeps under the laws (R54 to R57, R77, R78). -/

namespace Sys2Proof.Machine

open Sys2Proof.Safety

/-! ## Requests reported done (R77, R93, R102, R106, R122, R136, R153) -/

/-- A state in which requests are reported done: no claim is left over, and headers are written. -/
def ReportsDone (s : State) : Prop := settled s ∧ WritesHeaders s

theorem ReportsDone.of_same {s t : State} (h : ReportsDone s) (ha : t.transit.access = none → s.transit.access = none)
    (hc : t.transit.claims = s.transit.claims) (he : t.epochs.engine = s.epochs.engine)
    (hr : t.epochs.recovery = s.epochs.recovery) : ReportsDone t := by
  refine ⟨fun k => hc.trans (h.1 (ha k)), ?_, ?_⟩
  · rw [he]; exact h.2.1
  · rw [he, hr]; exact h.2.2

theorem takeCut_engine (s : State) : (takeCut s).epochs.engine = s.epochs.engine := by
  unfold takeCut
  split
  · rfl
  · dsimp only
    split
    · unfold cut
      dsimp only
      rw [allocate_eq, lowWater_eq]
      rfl
    · rfl

/-- A cut claimed with no access in progress is taken at once; the engine stays where it is. -/
theorem claimed_reportsDone {s : State} (ha : s.transit.access = none) (he : s.epochs.engine = .journaling)
    {b : CutBy} (hc : s.transit.claims = ⟨false, some b, none⟩) : ReportsDone (claimed s) := by
  have taken : claimed s = takeStart (takeCut (takeCommit s)) := by
    unfold claimed boundary
    rw [ha, hc]
    rfl
  have no_start : (takeCut (takeCommit s)).transit.claims.start = none := by
    rw [takeCut_claims, takeCommit_claims, hc]
  have engine : (takeStart (takeCut (takeCommit s))).epochs.engine = .journaling := by
    rw [takeStart_of_not_waiting no_start, takeCut_engine, takeCommit_epochs, he]
  rw [taken]
  refine ⟨fun _ => ?_, writesHeaders_of_engine (by rw [engine]; decide)⟩
  rw [takeStart_claims, takeCut_claims, takeCommit_claims, hc]
  rfl

theorem reevaluate_reportsDone {s : State} (h : ReportsDone s) : ReportsDone (reevaluate s) := by
  unfold reevaluate
  split
  next mark =>
    cases ha : s.transit.access with
    | none =>
      refine claimed_reportsDone (s := claimCut .mark s) (b := .mark) ha mark.1 ?_
      show { s.transit.claims with cut := some CutBy.mark } = _
      rw [h.1 ha]
      rfl
    | some a =>
      have waits : claimed (claimCut .mark s) = claimCut .mark s := if_neg (by
        show ¬ s.transit.access.isNone = true
        rw [ha]
        simp)
      rw [waits]
      refine ⟨fun k => ?_, writesHeaders_of_engine (by show s.epochs.engine ∉ _; simp [mark.1])⟩
      rw [show s.transit.access = none from k] at ha
      cases ha
  next => exact h

theorem retestSpace_reportsDone {s : State} (h : ReportsDone s) : ReportsDone (retestSpace s) := by
  unfold retestSpace
  split
  next => exact h
  next a ha =>
    split
    next =>
      rw [startCapture_eq, lowWater_eq]
      exact h.of_same (fun k => by cases k) rfl rfl rfl
    next => exact h

theorem doneRequest_kept {s : State} (h : ReportsDone s) (r : HeaderRequest) : LawsKept s (doneRequest s r) := by
  unfold doneRequest
  split
  next =>
    unfold checkpointDone
    split
    next =>
      have ended : LawsKept s (s.setEpochs { s.epochs with ckptInFlight := false }) :=
        { engine := fun law => { law with checkpoint := by simp }
          maps := fun _ m => mapLaw_of_view m rfl
          epochs := fun _ _ n => ⟨{ n.1 with }, { n.2 with cut := by simp }⟩
          transit := fun _ _ _ law => transitLaw_of_view law rfl rfl }
      exact (ended.trans (post_unread _ _).kept).trans (reevaluate_kept _)
    next => exact .refl s
  next =>
    unfold releaseDone
    dsimp only
    refine LawsKept.trans ?_ ((reevaluate_kept _).trans (retestSpace_kept _))
    split
    · rw [answer_eq]
      exact Unread.kept rfl
    · exact Unread.kept rfl
  next => exact breakRecorded_kept _ s
  next =>
    split
    next hw => exact walkBegin_kept hw
    next => exact .refl s
  next => exact .refl s
  next =>
    exact LawsKept.trans (t := s.setEpochs { s.epochs with settleDone := true }) (Unread.kept rfl)
      (finishSettling_kept (by exact h.1))
  next =>
    split
    next he =>
      obtain ⟨hd, sc, hr⟩ := h.2.2 he
      exact recoverEnd_kept he hr _ (by simp)
    next => exact .refl s

theorem doneRequest_reportsDone {s : State} (h : ReportsDone s) (r : HeaderRequest) :
    ReportsDone (doneRequest s r) := by
  unfold doneRequest
  split
  next =>
    unfold checkpointDone
    split
    next =>
      rw [post_eq]
      exact reevaluate_reportsDone (h.of_same id rfl rfl rfl)
    next => exact h
  next =>
    unfold releaseDone
    dsimp only
    refine retestSpace_reportsDone (reevaluate_reportsDone ?_)
    split
    · rw [answer_eq]
      exact h.of_same id rfl rfl rfl
    · exact h.of_same id rfl rfl rfl
  next =>
    unfold breakRecorded
    split
    next =>
      dsimp only
      split
      next => exact h.of_same id rfl rfl rfl
      next =>
        split
        next => exact h.of_same (fun k => by cases k) rfl rfl rfl
        next => exact h.of_same id rfl rfl rfl
    next => exact h
  next =>
    split
    next => exact h.of_same id rfl rfl rfl
    next => exact h
  next => exact h
  next =>
    unfold finishSettling
    split
    next => rw [post_eq]; exact ⟨h.1, writesHeaders_of_engine (by simp [setEngine])⟩
    next => exact h.of_same id rfl rfl rfl
  next =>
    split
    next => unfold recoverEnd; rw [post_eq]; exact ⟨h.1, writesHeaders_of_engine (by simp)⟩
    next => exact h

theorem doneRequests_kept (rs : List HeaderRequest) {s : State} (h : ReportsDone s) :
    LawsKept s (rs.foldl doneRequest s) ∧ ReportsDone (rs.foldl doneRequest s) := by
  induction rs generalizing s with
  | nil => exact ⟨.refl s, h⟩
  | cons r rs ih =>
    obtain ⟨kept, ready⟩ := ih (doneRequest_reportsDone h r)
    exact ⟨(doneRequest_kept h r).trans kept, ready⟩

/-! ## The header write's end (R77, R78, R141, R142) -/

theorem endHeader_noFormatCopy (s : State) : NoFormatCopy (endHeader s) := fun _ h => by cases h

theorem formatting_of_stage {s : State} (law : EngineLaw s) {f : FormatStage} (h : s.epochs.format = f)
    (hf : f ≠ .idle) : s.epochs.engine = .formatting :=
  law.format.2 (by rwa [h])

theorem headerDone_kept {s : State} {j : HeaderJob} (hj : s.journal.header.inFlight = some j) (hs : settled s) :
    LawsKept s (headerDone j s) := by
  refine .of_law fun law => ?_
  have ended := endHeader_kept s
  unfold headerDone
  dsimp only
  split
  next =>
    have writes := writesHeaders_of_job law hj
    have ready : ReportsDone (endHeader s) := ⟨hs, writes⟩
    obtain ⟨kept, ready⟩ := doneRequests_kept j.requests ready
    exact (ended.trans kept).trans (beginDirty_kept ready.2)
  next kind =>
    have stage := law.copyA j hj kind
    have he := formatting_of_stage law stage (by simp)
    have staged : LawsKept (endHeader s) (setFormat .copyB (endHeader s)) := by
      refine setFormat_kept he (by show s.epochs.format ∈ _; simp [stage]) (by simp) (fun _ h => by cases h) fun i h => ?_
      have := law.formatMarker i he h
      rw [stage] at this
      cases this
    exact (ended.trans staged).trans (beginHeader_kept (writesHeaders_of_engine (by
      show s.epochs.engine ∉ _
      simp [he])) (by simp) (fun _ => rfl) _ _ _)
  next kind =>
    refine ended.trans (formatDone_kept ?_ (endHeader_noFormatCopy s))
    show s.epochs.format ∈ _
    simp [law.copyB j hj kind]
  next => exact ended.trans (resumeFormat_kept _)

theorem failRequests_engine (rs : List HeaderRequest) {s : State} (h : s.epochs.engine ≠ .rollingBack) :
    (failRequests rs s).epochs.engine ≠ .rollingBack := by
  induction rs generalizing s with
  | nil => exact h
  | cons r rs ih => exact ih (failRequest_engine h r)

theorem headerFailed_kept {s : State} {j : HeaderJob} (hj : s.journal.header.inFlight = some j) :
    LawsKept s (headerFailed j s) := by
  refine .of_law fun law => ?_
  have ended := endHeader_kept s
  unfold headerFailed
  dsimp only
  split
  next =>
    split
    next h =>
      refine (ended.trans (enterFaulted_kept h)).trans (failRequests_kept _ ?_)
      rw [enterFaulted_eq, faulted_engine]
      decide
    next h =>
      have stays : s.epochs.engine ≠ .rollingBack := by
        intro k
        rw [k] at h
        exact h rfl
      refine (ended.trans ((clearDirty_kept _).trans (failRequests_kept _ (by exact stays)))).trans
        (failRequests_kept _ (failRequests_engine _ (by exact stays)))
  next kind =>
    have he := formatting_of_stage law (law.copyA j hj kind) (by simp)
    exact ended.trans (formatFail_kept he (endHeader_noFormatCopy s))
  next kind =>
    have he := formatting_of_stage law (law.copyB j hj kind) (by simp)
    exact ended.trans (formatFail_kept he (endHeader_noFormatCopy s))
  next => exact ended.trans (resumeFormat_kept _)

end Sys2Proof.Machine
end

section
/-! The end of a sweep under the laws, and the stages of FORMAT and RECOVER that wait for it (R54 to R57, R141, R147). -/

namespace Sys2Proof.Machine

open Sys2Proof.Safety

/-! ## The sweep's end (R54) -/

theorem get_endSweep_other {m : CaptureMaps} {r : Sweep} (hr : m.running = some r) {j : MapId} (hj : j ≠ r.map) :
    (endSweep m).get j = m.get j := by
  rw [endSweep_eq hr]
  exact get_put_other m hj _

theorem find_of_iff {m n : CaptureMaps} {x : MapState} (h : ∀ j, (n.get j).state = x ↔ (m.get j).state = x) :
    n.find x = m.find x := by
  have h0 : n.m0.state = x ↔ m.m0.state = x := h .m0
  have h1 : n.m1.state = x ↔ m.m1.state = x := h .m1
  unfold CaptureMaps.find
  simp only [h0, h1]

/-- The map swept becomes CLEAN: which map is ACTIVE stays, and a CLEAN map stays CLEAN. -/
theorem endSweep_states {m : CaptureMaps} {r : Sweep} (hr : m.running = some r) (swept : (m.get r.map).state = .sweeping)
    (j : MapId) : (((endSweep m).get j).state = .active ↔ (m.get j).state = .active) ∧
      ((m.get j).state = .clean → ((endSweep m).get j).state = .clean) := by
  by_cases hj : j = r.map
  · subst hj
    rw [get_endSweep hr, swept]
    simp [sweptMap]
  · rw [get_endSweep_other hr hj]
    exact ⟨Iff.rfl, id⟩

theorem bitSet_endSweep {s : State} {r : Sweep} (hr : s.maps.running = some r)
    (swept : (s.maps.get r.map).state = .sweeping) {a : Nat} (h : bitSet s a = true) :
    bitSet (s.setMaps (endSweep s.maps)) a = true := by
  obtain ⟨i, w, hi, hw, hb⟩ := (bitSet_iff s a).1 h
  have other : i ≠ r.map := by
    rintro rfl
    have := get_of_find hi
    rw [swept] at this
    cases this
  refine (bitSet_iff _ a).2 ⟨i, w, ?_, (endSweep_window hr).trans hw, ?_⟩
  · exact (find_of_iff fun j => (endSweep_states hr swept j).1).trans hi
  · show _ ∈ ((endSweep s.maps).get i).bits
    rwa [get_endSweep_other hr other]

theorem endSweep_kept {s : State} {r : Sweep} (hr : s.maps.running = some r) :
    LawsKept s (s.setMaps (endSweep s.maps)) where
  engine law := { law with window := (endSweep_window hr).trans law.window }
  maps _ m := by
    have states := endSweep_states hr (m.running r hr)
    have active0 : (endSweep s.maps).m0.state = .active ↔ s.maps.m0.state = .active := (states .m0).1
    have active1 : (endSweep s.maps).m1.state = .active ↔ s.maps.m1.state = .active := (states .m1).1
    have clean0 : s.maps.m0.state = .clean → (endSweep s.maps).m0.state = .clean := (states .m0).2
    have clean1 : s.maps.m1.state = .clean → (endSweep s.maps).m1.state = .clean := (states .m1).2
    have sweeps := (sweepsLawful_of_mapLaw m).endSweep hr
    exact
      { one := by rw [State.maps_setMaps, active0, active1]; exact m.one
        active := by rw [State.maps_setMaps, active0, active1]; exact m.active
        running := sweeps.running
        queued := sweeps.queued
        sweeping := sweeps.sweeping
        formatting := fun h => (m.formatting h).imp clean0 clean1
        scanning := fun h sc buf k => (m.scanning h sc buf k).imp clean0 clean1
        loading := fun h sc ld buf k => (m.loading h sc ld buf k).imp active0.2 clean1
        cutIn := m.cutIn
        cutClean := fun h k => (m.cutClean h k).imp clean0 clean1 }
  epochs _ _ n := n.of_view rfl
  transit _ m _ law := transitLaw_of_kept law rfl rfl (fun _ => bitSet_endSweep hr (m.running r hr)) rfl rfl id id

/-! ## The stages that wait for both maps (R56, R57, R141, R147) -/

/-- FORMAT or RECOVER waits for the sweeps of its window. -/
def AwaitsSweeps (s : State) : Prop := s.epochs.format = .sweep ∨ ∃ h, s.epochs.recovery = .sweep h

theorem engine_of_awaits {s : State} (law : EngineLaw s) (h : AwaitsSweeps s) :
    s.epochs.engine = .formatting ∨ s.epochs.engine = .recovering := by
  rcases h with h | ⟨x, h⟩
  · exact .inl (law.format.2 (by simp [h]))
  · exact .inr (law.recovery.2 (by simp [h]))

/-- A sweep started under another window size is made again. -/
theorem sweptAgain_kept {s : State} (h : AwaitsSweeps s) (i : MapId) :
    LawsKept s (s.setMaps (requestSweep i s.maps)) := by
  refine .of_law fun law => ?_
  have he := engine_of_awaits law h
  have geometry : s.journal.geometry ≠ none := by
    intro none
    rcases h with h | ⟨x, h⟩
    · have := law.present (by rw [law.format.2 (by simp [h])]; simp)
      rw [none] at this
      cases this
    · obtain ⟨buf, hb⟩ := (law.read (law.recovery.2 (by simp [h]))).1 none
      rw [h] at hb
      cases hb
  obtain ⟨g, hg⟩ := Option.ne_none_iff_exists'.1 geometry
  have hw : s.maps.window = some g.window := by rw [law.window, hg]; rfl
  have stage : s.epochs.format ∉ [.marker, .copyA, .copyB] ∧ (∀ h sc buf, s.epochs.recovery ≠ .scan h sc buf) ∧
      (∀ h sc ld buf, s.epochs.recovery ≠ .load h sc ld buf) ∧ ∀ h sc, s.epochs.recovery ≠ .header h sc := by
    rcases h with h | ⟨x, h⟩
    · have := recovery_idle law (by rw [law.format.2 (by simp [h])]; decide)
      simp [h, this]
    · have := format_idle law (by rw [law.recovery.2 (by simp [h])]; decide)
      simp [h, this]
  obtain ⟨noCopy, noScan, noLoad, noHeader⟩ := stage
  exact
    { engine := fun law => { law with window := (requestSweep_window _ _).trans law.window }
      maps := fun _ m => by
        have sweeps := (sweepsLawful_of_mapLaw m).requestSweep hw i
        exact
          { one := not_both_of_get (i := i) (by
              show ((requestSweep i s.maps).get i).state ≠ _
              rw [get_requestSweep (by simp [hw]), if_pos rfl]
              simp)
            active := by rcases he with he | he <;> simp [he]
            running := sweeps.running
            queued := sweeps.queued
            sweeping := sweeps.sweeping
            formatting := fun k => absurd k noCopy
            scanning := fun h sc buf k => absurd k (noScan h sc buf)
            loading := fun h sc ld buf k => (k.elim (noLoad h sc ld buf) (noHeader h sc)).elim
            cutIn := m.cutIn
            cutClean := by rcases he with he | he <;> simp [he] }
      epochs := fun _ _ n => n.of_view rfl
      transit := fun _ _ _ law =>
        transitLaw_of_refusing law rfl (by rcases he with he | he <;> simp [he]) }

theorem sweepStage_kept {s : State} (h : AwaitsSweeps s) (r : Sweep) {next : State → State}
    (hn : s.maps.m0.state = .clean → s.maps.m1.state = .clean → LawsKept s (next s)) :
    LawsKept s (sweepStage r next s) := by
  unfold sweepStage
  split
  · exact sweptAgain_kept h _
  · split
    next clean => exact hn clean.1 clean.2
    next => exact .refl s

/-- RECOVER goes on to another stage, with what the laws ask of that stage. -/
theorem setRecovery_kept {s : State} {r : RecoveryStage} (he : s.epochs.engine = .recovering) (h0 : r ≠ .idle)
    (hh : ∀ h sc, s.epochs.recovery ≠ .header h sc)
    (hc : (∃ buf, s.epochs.recovery = .copies buf) ↔ ∃ buf, r = .copies buf)
    (maps : MapLaw s → (∀ h sc buf, r = .scan h sc buf → s.maps.m0.state = .clean ∧ s.maps.m1.state = .clean) ∧
      ∀ h sc ld buf, r = .load h sc ld buf ∨ r = .header h sc → s.maps.m0.state = .active ∧ s.maps.m1.state = .clean)
    (table : EpochsGoOn s → (∀ h sc ld buf, r = .load h sc ld buf ∨ r = .header h sc → s.epochs.table ≠ []) ∧
      ∀ h sc buf, r = .scan h sc buf → sc.entries.length ≤ 16 ∧ (sc.records = 0 ↔ sc.entries = []) ∧
        (sc.entries.map fun e => e.epoch.toNat).Pairwise (· < ·) ∧
        ∀ e ∈ sc.entries, 1 ≤ e.epoch.toNat ∧ e.epoch.toNat ≤ sc.epoch.toNat) : LawsKept s (setRecovery r s) where
  engine law :=
    { law with
      recovery := ⟨fun _ => h0, fun _ => he⟩
      unwritten := fun h => ⟨(law.unwritten h).1, fun _ => (law.unwritten h).2 hh⟩
      read := fun h => (law.read h).trans hc }
  maps _ m := { m with scanning := (maps m).1, loading := (maps m).2 }
  epochs _ _ n := ⟨{ n.1 with rebuilt := (table n).1, scanned := (table n).2 }, { n.2 with }⟩
  transit _ _ _ law := transitLaw_of_view law rfl rfl

theorem beginScan_kept {s : State} {h : Header} (hr : s.epochs.recovery = .sweep h) (h0 : s.maps.m0.state = .clean)
    (h1 : s.maps.m1.state = .clean) : LawsKept s (beginScan h s) := by
  refine .of_law fun law => setRecovery_kept (law.recovery.2 (by simp [hr])) (by simp) (by simp [hr]) (by simp [hr])
    (fun _ => ⟨fun _ _ _ _ => ⟨h0, h1⟩, by simp⟩) (fun _ => ⟨by simp, ?_⟩)
  rintro _ sc _ eq
  cases eq
  simp

theorem sweepDone_kept {s : State} {r : Sweep} (hr : s.maps.running = some r) (hs : settled s) :
    LawsKept s (sweepDone r s) := by
  have swept := endSweep_kept hr
  have clean : ((s.setMaps (endSweep s.maps)).maps.get r.map).state = .clean := by
    rw [State.maps_setMaps, get_endSweep hr]
    rfl
  unfold sweepDone
  dsimp only
  split
  next he =>
    refine (swept.trans (settleMap_kept (s := s.setMaps (endSweep s.maps)) he clean)).trans (finishSettling_kept ?_)
    unfold settleMap
    split
    · exact hs
    · exact hs
  next =>
    split
    next h =>
      exact swept.trans (sweepStage_kept (s := s.setMaps (endSweep s.maps)) (.inl h) r fun h0 h1 => formatMarker_kept h h0 h1)
    next => exact swept
  next =>
    split
    next h hr =>
      exact swept.trans (sweepStage_kept (s := s.setMaps (endSweep s.maps)) (.inr ⟨h, hr⟩) r fun h0 h1 =>
        beginScan_kept hr h0 h1)
    all_goals exact swept
  next => exact swept.trans (reevaluate_kept _)
  all_goals exact swept

end Sys2Proof.Machine
end

section
/-! RECOVER's reads under the laws: the header copies, the scan, the rebuild, the map load and the settlement of the
pending target (R57, R145 to R153). -/

namespace Sys2Proof.Machine

open Sys2Proof.Safety

/-! ## What the scan has accepted (R148 to R150) -/

theorem wellFormed_of_valid {identity : Option Word} {bs : List Byte} (h : verdict identity bs = .valid) :
    (Record.decode bs).wellFormed = true := by
  unfold verdict at h
  simp only at h
  split at h
  · cases h
  · split at h
    · cases h
    · split at h
      next k => exact k
      next => cases h

/-- A record that passes the third test has an epoch that is not 0, and is an UNDO record or a MARKER (R65). -/
theorem kind_of_wellFormed {r : Record} (h : r.wellFormed = true) :
    r.epoch ≠ 0 ∧ (r.kind = kindUndo ∨ r.kind = kindMarker) := by
  unfold Record.wellFormed at h
  simp only [Bool.and_eq_true, bne_iff_ne, ne_eq] at h
  refine ⟨h.1, ?_⟩
  by_cases undo : r.kind = kindUndo
  · exact .inl undo
  · by_cases marker : r.kind = kindMarker
    · exact .inr marker
    · simp [undo, marker] at h

/-- The entries of a scan: their numbers rise, none is 0, none is above the last record's epoch. -/
def ScanOrdered (sc : Scan) : Prop :=
  (sc.records = 0 ↔ sc.entries = []) ∧ (sc.entries.map fun e => e.epoch.toNat).Pairwise (· < ·) ∧
    ∀ e ∈ sc.entries, 1 ≤ e.epoch.toNat ∧ e.epoch.toNat ≤ sc.epoch.toNat

theorem acceptRecord_marker_eq {n : Nat} {p : Word} {sc : Scan} {bs : List Byte}
    (hk : (Record.decode bs).kind = kindMarker) : ∃ e : Entry, e.epoch = (Record.decode bs).epoch ∧
      (acceptRecord n p sc bs).entries = sc.entries ++ [e] :=
  ⟨⟨(Record.decode bs).epoch, sc.slot, (Record.decode bs).sequence, 0,
    (Cause.ofCode (Record.decode bs).cause).getD .format⟩, rfl, by simp [acceptRecord, hk]⟩

theorem acceptRecord_undo_eq {n : Nat} {p : Word} {sc : Scan} {bs : List Byte}
    (hk : (Record.decode bs).kind = kindUndo) : (acceptRecord n p sc bs).entries = raiseLast sc.entries := by
  simp [acceptRecord, hk, kindUndo, kindMarker]

theorem toNat_pos_of_ne_zero {x : Word} (h : x ≠ 0) : 1 ≤ x.toNat := by
  have : x.toNat ≠ 0 := fun k => h (BitVec.eq_of_toNat_eq k)
  omega

/-- A record accepted keeps the entries in order. -/
theorem acceptRecord_ordered {identity : Word} {w : Window} {h : Header} {n : Nat} {p : Word} {sc : Scan}
    {bs : List Byte} (law : ScanOrdered sc)
    (ok : (if sc.records = 0 then headAccepted identity h bs else nextAccepted identity w sc bs) = true) :
    ScanOrdered (acceptRecord n p sc bs) := by
  obtain ⟨count, rising, numbered⟩ := law
  have epoch : (acceptRecord n p sc bs).epoch = (Record.decode bs).epoch := rfl
  have records : (acceptRecord n p sc bs).records ≠ 0 := Nat.succ_ne_zero _
  have marker (hk : (Record.decode bs).kind = kindMarker) (ne : (Record.decode bs).epoch ≠ 0)
      (above : ∀ e ∈ sc.entries, e.epoch.toNat < (Record.decode bs).epoch.toNat) :
      ScanOrdered (acceptRecord n p sc bs) := by
    obtain ⟨x, hx, entries⟩ := acceptRecord_marker_eq (n := n) (p := p) (sc := sc) hk
    refine ⟨⟨fun k => absurd k records, fun k => by rw [entries] at k; simp at k⟩, ?_, ?_⟩
    · rw [entries, List.map_append, List.pairwise_append]
      refine ⟨rising, by simp, ?_⟩
      simp only [List.map_cons, List.map_nil, List.mem_cons, List.not_mem_nil, or_false, List.mem_map]
      rintro _ ⟨e, he, rfl⟩ _ rfl
      rw [hx]
      exact above e he
    · intro e he
      rw [entries] at he
      rw [epoch]
      rcases List.mem_append.1 he with he | he
      · exact ⟨(numbered e he).1, (above e he).le⟩
      · rw [List.mem_singleton.1 he, hx]
        exact ⟨toNat_pos_of_ne_zero ne, le_refl _⟩
  split at ok
  next first =>
    obtain ⟨valid, hk, -⟩ := (headAccepted_iff _ _ _).1 ok
    refine marker hk (kind_of_wellFormed (wellFormed_of_valid valid)).1 ?_
    rw [count.1 first]
    simp
  next later =>
    have ok' := ok
    unfold nextAccepted at ok
    simp only [Bool.and_eq_true, decide_eq_true_eq] at ok
    obtain ⟨ne, kind⟩ := kind_of_wellFormed (wellFormed_of_valid ok.1)
    rcases kind with hk | hk
    · have same := ((nextAccepted_undo_iff _ _ _ hk).1 ok').2.2.1
      have entries := acceptRecord_undo_eq (n := n) (p := p) (sc := sc) hk
      obtain ⟨length, numbers, member⟩ := entries_of_epochs (raiseLast_epochs sc.entries)
      refine ⟨⟨fun k => absurd k records, fun k => ?_⟩, ?_, fun e he => ?_⟩
      · rw [entries, ← List.length_eq_zero_iff, length, List.length_eq_zero_iff] at k
        exact absurd (count.2 k) later
      · rw [entries, numbers]
        exact rising
      · rw [entries] at he
        obtain ⟨x, hx, eq⟩ := member e he
        rw [epoch, same, ← eq]
        exact numbered x hx
    · refine marker hk ne fun e he => ?_
      have above : sc.epoch < (Record.decode bs).epoch := by
        have := ok.2
        rw [if_neg (by rw [hk]; decide)] at this
        simp only [Bool.and_eq_true, decide_eq_true_eq] at this
        exact this.1
      exact lt_of_le_of_lt (numbered e he).2 above

/-! ## The header copies (R145 to R147) -/

/-- What a legal header copy brings in: the geometry with its window, and the sweeps of both maps. -/
theorem copyChosen_kept {s : State} {buf : List Byte} (hr : s.epochs.recovery = .copies buf) (h : Header) (c : Copy) :
    LawsKept s { s with
      journal.header.generation := h.generation
      journal.header.last := some c
      journal.geometry := some ⟨h.identity, h.slotCount, h.window⟩
      maps := installWindow h.window s.maps
      epochs.recovery := .sweep h } := by
  refine .of_law fun law => ?_
  have he : s.epochs.engine = .recovering := law.recovery.2 (by simp [hr])
  exact
    { engine := fun law =>
        { law with
          recovery := by simp [he]
          window := installWindow_window _ _
          absent := by simp [he]
          present := by simp
          unwritten := fun h => ⟨(law.unwritten h).1, fun _ => (law.unwritten h).2 (by simp [hr])⟩
          read := by simp }
      maps := fun law m => by
        have sweeps := (sweepsLawful_of_mapLaw m).installWindow h.window
        exact
          { one := not_both_of_get (i := .m0) (by
              show ((installWindow h.window s.maps).get .m0).state ≠ _
              rw [get_installWindow]
              simp)
            active := by simp [he]
            running := sweeps.running
            queued := sweeps.queued
            sweeping := sweeps.sweeping
            formatting := by simp [format_idle law, he]
            scanning := by simp
            loading := by simp
            cutIn := m.cutIn
            cutClean := by simp [he] }
      epochs := fun _ _ n => ⟨{ n.1 with rebuilt := by simp, scanned := by simp }, { n.2 with }⟩
      transit := fun _ _ _ law => transitLaw_of_refusing law rfl (by simp [he]) }

theorem copiesRead_kept {s : State} {buf : List Byte} (hr : s.epochs.recovery = .copies buf) (bs : List Byte) :
    LawsKept s (copiesRead bs s) := by
  refine .of_law fun law => ?_
  have he : s.epochs.engine = .recovering := law.recovery.2 (by simp [hr])
  unfold copiesRead
  split
  next => exact recoverFail_kept he _
  next c h _ =>
    have noted : LawsKept s (setHeader { s.journal.header with generation := h.generation, last := some c } s) :=
      Unread.kept rfl
    dsimp only
    split
    · exact noted.trans (recoverFail_kept (by exact he) _)
    · split
      · exact noted.trans (recoverFail_kept (by exact he) _)
      · exact copyChosen_kept hr h c

/-! ## The settlement and the rebuild (R57, R151, R152) -/

theorem setRecovery_same {s : State} {r : RecoveryStage} (h : s.epochs.recovery = r) : setRecovery r s = s := by
  subst h
  rfl

theorem settleTarget_setRecovery (h : Header) (sc : Scan) (s : State) :
    settleTarget h sc (setRecovery (.header h sc) s) = settleTarget h sc s := rfl

theorem settleTarget_kept {s : State} {h : Header} {sc : Scan} (hr : s.epochs.recovery = .header h sc) :
    LawsKept s (settleTarget h sc s) := by
  refine .of_law fun law => ?_
  have he : s.epochs.engine = .recovering := law.recovery.2 (by simp [hr])
  have writes := writesHeaders_of_header he hr
  unfold settleTarget
  rw [setRecovery_same hr]
  dsimp only
  split
  · exact recoverEnd_kept he hr _ (by simp)
  · have noted (k : Word) : LawsKept s (s.setEpochs { s.epochs with pendingTarget := k }) := Unread.kept rfl
    split
    · exact (noted 0).trans (requestHeader_kept (by exact writes) _)
    · exact (noted h.pendingTarget).trans (recoverEnd_kept (by exact he) (by exact hr) _ (by simp))

/-- What the rebuild changes of the state that the laws read; the stage that follows is the map load or the last. -/
def rebuilt (h : Header) (sc : Scan) (r : RecoveryStage) (s : State) : State :=
  { s with
    journal.marker := .none
    epochs.table := sc.entries
    epochs.lastUsed := epochMax ((sc.entries.getLast?.map (·.epoch)).getD 0) h.latestBroken
    epochs.latestBroken := h.latestBroken
    epochs.breakRecording := false
    epochs.ckptInFlight := false
    epochs.pendingMark := 0
    epochs.recovery := r
    maps := s.maps.setState .m0 .active }

theorem le_epochMax (x y : Word) : x.toNat ≤ (epochMax x y).toNat := by
  unfold epochMax
  split
  next h => exact le_of_lt h
  next => exact le_refl _

/-- Rising numbers are all at most the last one. -/
theorem epoch_le_last {l : List Entry} (rising : (l.map fun e => e.epoch.toNat).Pairwise (· < ·)) {e : Entry} (he : e ∈ l) :
    e.epoch.toNat ≤ ((l.getLast?.map fun x : Entry => x.epoch).getD 0).toNat := by
  have nonempty : l ≠ [] := List.ne_nil_of_mem he
  rw [List.getLast?_eq_some_getLast nonempty]
  have split := List.dropLast_append_getLast nonempty
  rw [← split] at rising he
  rcases List.mem_append.1 he with he | he
  · rw [List.map_append, List.pairwise_append] at rising
    exact le_of_lt (rising.2.2 _ (List.mem_map_of_mem he) _ (by simp))
  · rw [List.mem_singleton.1 he]
    exact le_refl _

theorem rebuilt_kept {s : State} {h : Header} {sc : Scan} {buf : List Byte} (hr : s.epochs.recovery = .scan h sc buf)
    (h0 : sc.records ≠ 0) {r : RecoveryStage} (next : r = .header h sc ∨ ∃ ld, r = .load h sc ld []) :
    LawsKept s (rebuilt h sc r s) := by
  refine .of_law fun law => ?_
  have he : s.epochs.engine = .recovering := law.recovery.2 (by simp [hr])
  have live : r ≠ .idle ∧ (∀ buf, r ≠ .copies buf) ∧ ∀ h sc buf, r ≠ .scan h sc buf := by
    rcases next with rfl | ⟨ld, rfl⟩ <;> simp
  obtain ⟨notIdle, notCopies, notScan⟩ := live
  exact
    { engine := fun law =>
        { law with
          recovery := ⟨fun _ => notIdle, fun _ => he⟩
          formatMarker := by simp [rebuilt]
          mark := by simp [rebuilt]
          marks := by simp [rebuilt]
          checkpoint := by simp [rebuilt]
          window := (setState_window _ _ _).trans law.window
          unwritten := fun h => ⟨rfl, fun _ => (law.unwritten h).2 (by simp [hr])⟩
          read := fun _ => by
            have := law.read he
            simp only [hr, reduceCtorEq, exists_false, iff_false] at this
            exact iff_of_false this fun ⟨buf, k⟩ => notCopies buf k }
      maps := fun law m => by
        obtain ⟨clean0, clean1⟩ := m.scanning h sc buf hr
        have sweeps := (sweepsLawful_of_mapLaw m).setState (i := .m0) (x := .active)
          (by show s.maps.m0.state ≠ _; rw [clean0]; decide) (by decide)
        exact
          { one := fun k => by
              have : s.maps.m1.state = .active := k.2
              rw [clean1] at this
              cases this
            active := by simp [rebuilt, he]
            running := sweeps.running
            queued := sweeps.queued
            sweeping := sweeps.sweeping
            formatting := by simp [rebuilt, format_idle law, he]
            scanning := fun h sc buf k => absurd k (notScan h sc buf)
            loading := fun _ _ _ _ _ => ⟨rfl, clean1⟩
            cutIn := m.cutIn
            cutClean := by simp [rebuilt, he] }
      epochs := fun law _ n => by
        obtain ⟨room, count, rising, numbered⟩ := n.1.scanned h sc buf hr
        have nonempty : sc.entries ≠ [] := fun k => h0 (count.2 k)
        exact
          ⟨{  room := room
              rising := rising
              numbered := fun e k =>
                ⟨(numbered e k).1, (epoch_le_last rising k).trans (le_epochMax _ _)⟩
              cut := by simp [rebuilt, he]
              current := by simp [rebuilt, he]
              formatted := by simp [rebuilt, format_idle law, he]
              rebuilt := fun _ _ _ _ _ => nonempty
              scanned := fun h sc buf k => absurd k (notScan h sc buf) },
           ⟨by simp [rebuilt], by simp [rebuilt, no_start_claimed law, walker_stopped law, he]⟩⟩
      transit := fun _ _ _ law => transitLaw_of_refusing law rfl (by simp [he]) }

theorem rebuild_kept {s : State} {h : Header} {sc : Scan} {buf : List Byte} (hr : s.epochs.recovery = .scan h sc buf)
    (h0 : sc.records ≠ 0) : LawsKept s (rebuild h sc s) := by
  unfold rebuild
  dsimp only
  split
  · rw [← settleTarget_setRecovery]
    refine LawsKept.trans ?_ (settleTarget_kept rfl)
    refine (rebuilt_kept hr h0 (.inl rfl)).trans (Unread.kept ?_)
    rfl
  · generalize MapLoad.mk _ _ _ = ld
    refine (rebuilt_kept hr h0 (.inr ⟨ld, rfl⟩)).trans (Unread.kept ?_)
    rfl

/-! ## The reads (R57, R145, R148 to R150) -/

theorem recoverFail_scan_unread {s : State} {h : Header} {sc : Scan} {buf : List Byte}
    (hr : s.epochs.recovery = .scan h sc buf) (o : RecoverOutcome) (on : Scan) :
    Unread (recoverFail o s) (recoverFail o (setRecovery (.scan h on []) s)) := by
  have maps : recoveryMaps s.epochs.recovery s.maps = { s.maps with window := none } := by rw [hr]; rfl
  unfold recoverFail
  rw [post_eq, post_eq, maps]
  rfl

theorem scanSlot_kept {s : State} {h : Header} {sc : Scan} {buf : List Byte} (hr : s.epochs.recovery = .scan h sc buf)
    (bs : List Byte) : LawsKept s (scanSlot h sc bs s) := by
  refine .of_law fun law => ?_
  have he : s.epochs.engine = .recovering := law.recovery.2 (by simp [hr])
  unfold scanSlot
  dsimp only
  by_cases ok : (if sc.records = 0 then headAccepted h.identity h bs else nextAccepted h.identity h.window sc bs) = true
  · rw [if_pos ok]
    split
    next => exact (recoverFail_kept he _).trans (recoverFail_scan_unread hr _ _).kept
    next room =>
      have scanned : LawsKept s (setRecovery (.scan h (acceptRecord h.slotCount h.pendingTarget sc bs) []) s) := by
        refine setRecovery_kept he (by simp) (by simp [hr]) (by simp [hr])
          (fun m => ⟨fun _ _ _ _ => m.scanning h sc buf hr, by simp⟩) (fun n => ⟨by simp, ?_⟩)
        rintro _ _ _ eq
        cases eq
        have capacity : (acceptRecord h.slotCount h.pendingTarget sc bs).entries.length ≤ 16 := not_lt.1 room
        exact ⟨capacity, acceptRecord_ordered (n.1.scanned h sc buf hr).2 ok⟩
      split
      next => exact scanned.trans (rebuild_kept rfl (Nat.succ_ne_zero _))
      next => exact scanned
  · rw [if_neg ok]
    split
    next => exact recoverFail_kept he _
    next h0 => exact rebuild_kept hr h0

theorem loadSlot_kept {s : State} {h : Header} {sc : Scan} {ld : MapLoad} {buf : List Byte}
    (hr : s.epochs.recovery = .load h sc ld buf) (bs : List Byte) : LawsKept s (loadSlot h sc ld bs s) := by
  refine .of_law fun law => ?_
  have he : s.epochs.engine = .recovering := law.recovery.2 (by simp [hr])
  have marked (a : Nat) : LawsKept s (s.setMaps (setBit s.maps a)) :=
    { engine := fun law => { law with window := (setBit_fields s.maps a).1.trans law.window }
      maps := fun _ m => setBit_mapLaw a m
      epochs := fun _ _ n => n.of_view rfl
      transit := fun _ _ _ law => transitLaw_of_refusing law rfl (by simp [he]) }
  have moved {r : RecoveryStage} (next : r = .header h sc ∨ ∃ later, r = .load h sc later []) {t : State}
      (he : t.epochs.engine = .recovering) (hr : t.epochs.recovery = .load h sc ld buf) :
      LawsKept t (setRecovery r t) := by
    refine setRecovery_kept he ?_ (by simp [hr]) ?_ (fun m => ⟨?_, fun _ _ _ _ _ => m.loading h sc ld buf (.inl hr)⟩)
      (fun n => ⟨fun _ _ _ _ _ => n.1.rebuilt h sc ld buf (.inl hr), ?_⟩)
    all_goals rcases next with rfl | ⟨later, rfl⟩ <;> simp [hr]
  unfold loadSlot
  split
  next =>
    have read : LawsKept s (if (Record.decode bs).kind = kindUndo then
        s.setMaps (setBit s.maps (Record.decode bs).granule) else s) := by
      split
      · exact marked _
      · exact .refl s
    have epochs : (if (Record.decode bs).kind = kindUndo then
        s.setMaps (setBit s.maps (Record.decode bs).granule) else s).epochs = s.epochs := by split <;> rfl
    dsimp only
    revert read epochs
    generalize (if (Record.decode bs).kind = kindUndo then
      s.setMaps (setBit s.maps (Record.decode bs).granule) else s) = t
    intro read epochs
    have he' : t.epochs.engine = .recovering := by rw [epochs, he]
    have hr' : t.epochs.recovery = .load h sc ld buf := by rw [epochs, hr]
    split
    · rw [← settleTarget_setRecovery]
      exact (read.trans (moved (.inl rfl) he' hr')).trans (settleTarget_kept rfl)
    · exact read.trans (moved (.inr ⟨_, rfl⟩) he' hr')
  next => exact recoverFail_kept he _

end Sys2Proof.Machine
end

section
/-! The commands that the ports, the timers and the claims give, under the laws (R21 to R45, R54, R57, R61, R74, R77, R78,
R91, R111, R119, R123, R126, R145 to R150). -/

namespace Sys2Proof.Machine

open Sys2Proof.Safety

/-! ## Outcomes -/

theorem settled_settle (s : State) : settled (settle s) := by
  intro ha
  rw [settle_access] at ha
  by_cases hc : s.transit.claims = Claims.none
  · rw [settle_of_settled fun _ => hc, hc]
  · exact settle_claims ha hc

/-- A command of a block leaves every law kept that its effect keeps once no claim is left over. -/
theorem quiet_laws {f : State → State} (hf : ∀ s, settled s → LawsKept s (f s)) (s : State) :
    ∃ t, quiet s f = .next t ∧ LawsKept s t := by
  unfold quiet
  split
  · exact ⟨s, rfl, .refl s⟩
  · exact ⟨_, rfl, (settle_kept s).trans (hf _ (settled_settle s))⟩

theorem act_laws {f : State → State} (hf : ∀ s, settled s → LawsKept s (f s)) (s : State) :
    ∃ t, act s f = .next t ∧ LawsKept s t :=
  quiet_laws (fun s hs => (hf s hs).trans (arbitrate_kept _)) s

theorem actOnClaims_laws {f : State → State} (hf : ∀ s, LawsKept s (f s)) (s : State) :
    ∃ t, actOnClaims s f = .next t ∧ LawsKept s t := by
  unfold actOnClaims
  split
  · exact ⟨s, rfl, .refl s⟩
  · exact ⟨_, rfl, (hf s).trans (arbitrate_kept _)⟩

/-! ## The upstream access -/

theorem execAccessArrival_laws (ua : BitVec 24) (write burst priv : Bool) (s : State) :
    ∃ t, execAccessArrival ua write burst priv s = .next t ∧ LawsKept s t := by
  refine act_laws (fun s hs => ?_) s
  split
  next => exact .refl s
  next h =>
    have ha : s.transit.access = none := by simpa using fun k => h (.inr k)
    exact arrive_kept ha (by rw [hs ha]; rfl) _ _ _ _

theorem execForwardBeatAck_laws (ube : BitVec 4) (data : Word) (s : State) :
    ∃ t, execForwardBeatAck ube data s = .next t ∧ LawsKept s t := by
  refine act_laws (fun s _ => ?_) s
  dsimp only
  split
  next => exact .refl s
  next a h =>
    have carried := (carryBeat_unread a ube data s).kept
    split
    next => exact carried.trans (endAccess_lands _ _).kept
    next last =>
      split
      next => exact carried.trans (answerErr_lands _ _).kept
      next => exact carried.trans (beat_counted_kept (by
          unfold carryBeat
          split <;> exact (access_of_forwarding h).1) last)

theorem execForwardDerr_laws (s : State) : ∃ t, execForwardDerr s = .next t ∧ LawsKept s t := by
  refine act_laws (fun s _ => ?_) s
  split
  · exact .refl s
  · exact (answerErr_lands _ s).kept

theorem execOldDataBurstDone_laws (s : State) : ∃ t, execOldDataBurstDone s = .next t ∧ LawsKept s t := by
  refine act_laws (fun s _ => ?_) s
  dsimp only
  split
  next => exact .refl s
  next a h =>
    obtain ⟨ha, hs⟩ := access_of_readingOld h
    have read := (takeOldBurst_unread a s).kept.trans (freeD_kept _)
    split
    · exact read.trans (record_begun_kept (by exact ha) hs (by simp [freeD]) _ _ _)
    · exact read.trans (old_burst_counted_kept (by exact ha) _)

theorem execOldDataDerr_laws (s : State) : ∃ t, execOldDataDerr s = .next t ∧ LawsKept s t := by
  refine act_laws (fun s _ => ?_) s
  split
  · exact .refl s
  · exact (freeD_kept s).trans (failCapture_lands _ _ _ _).kept

theorem execRecordWriteDone_laws (s : State) : ∃ t, execRecordWriteDone s = .next t ∧ LawsKept s t := by
  refine act_laws (fun s _ => ?_) s
  dsimp only
  split
  next => exact .refl s
  next b _ =>
    refine (endJ_unread b s).kept.trans ?_
    split
    next a _ h =>
      obtain ⟨ha, hs⟩ := access_of_writingRecord h
      split
      · have counted := record_burst_counted_kept ha 6
        exact counted.trans (recordComplete_kept (s := setAccess { a with recBursts := 6 } (endJ b s)) rfl hs)
      · exact record_burst_counted_kept ha _
    next => exact .refl _
    next => exact .refl _

theorem execRecordWriteJerr_laws (beats : Fin 4) (s : State) :
    ∃ t, execRecordWriteJerr beats s = .next t ∧ LawsKept s t := by
  refine act_laws (fun s _ => ?_) s
  dsimp only
  split
  next => exact .refl s
  next b _ =>
    refine (failJ_unread b beats s).kept.trans ?_
    split
    · exact (failCapture_lands _ _ _ _).kept
    · exact .refl _
    · exact .refl _

theorem execTimeBaseTick_laws (s : State) : ∃ t, execTimeBaseTick s = .next t ∧ LawsKept s t := by
  refine quiet_laws (fun s _ => ?_) s
  refine Unread.kept (.of_views rfl rfl rfl ?_ rfl)
  have timed : (s.transit.timer.map (· - 1)).isSome = s.transit.timer.isSome := by cases s.transit.timer <;> rfl
  exact congrArg (fun b => (s.transit.access, b, decide (s.dport.burst = some .transit))) timed

/-! ## The journal's own writes and the sweep -/

theorem endJ_journal (b : JBurst) (s : State) :
    (endJ b s).journal.marker = s.journal.marker ∧ (endJ b s).journal.header = s.journal.header := by
  unfold endJ landJ
  split
  · exact ⟨rfl, rfl⟩
  · exact ⟨rfl, rfl⟩

theorem endJ_transit (b : JBurst) (s : State) : (endJ b s).transit = s.transit := by
  unfold endJ landJ
  split <;> rfl

theorem endJ_epochs (b : JBurst) (s : State) : (endJ b s).epochs = s.epochs := by
  unfold endJ landJ
  split <;> rfl

theorem execMarkerWriteDone_laws (s : State) : ∃ t, execMarkerWriteDone s = .next t ∧ LawsKept s t := by
  refine act_laws (fun s _ => ?_) s
  dsimp only
  split
  next => exact .refl s
  next b _ =>
    refine (endJ_unread b s).kept.trans ?_
    split
    next j _ hm =>
      have hm : (endJ b s).journal.marker = .inFlight j := (endJ_journal b s).1.trans hm
      split
      · exact markerDone_kept hm
      · exact marker_moved_kept hm (i := { j with bursts := j.bursts + 1 }) rfl (.inl rfl)
    all_goals exact .refl _

theorem execMarkerWriteJerr_laws (beats : Fin 4) (s : State) :
    ∃ t, execMarkerWriteJerr beats s = .next t ∧ LawsKept s t := by
  refine act_laws (fun s _ => ?_) s
  dsimp only
  split
  next => exact .refl s
  next b _ =>
    refine ((failJ_unread b beats s).kept.trans (post_unread (.portError .markerWrite b.addr) _).kept).trans ?_
    split
    next j _ hm => exact markerFailed_kept (by rw [post_eq]; unfold failJ landJ; split <;> exact hm)
    all_goals exact .refl _

theorem execHeaderWriteDone_laws (s : State) : ∃ t, execHeaderWriteDone s = .next t ∧ LawsKept s t := by
  refine act_laws (fun s hs => ?_) s
  dsimp only
  split
  next => exact .refl s
  next b _ =>
    refine (endJ_unread b s).kept.trans ?_
    split
    next => exact .refl _
    next j hj =>
      have hj : (endJ b s).journal.header.inFlight = some j := by rw [(endJ_journal b s).2, hj]
      split
      · exact headerDone_kept hj (by rw [settled, endJ_transit]; exact hs)
      · exact Unread.kept (.of_views (by simp [engineView, setHeader, hj]) rfl rfl rfl rfl)

theorem execHeaderWriteJerr_laws (beats : Fin 4) (s : State) :
    ∃ t, execHeaderWriteJerr beats s = .next t ∧ LawsKept s t := by
  refine act_laws (fun s _ => ?_) s
  dsimp only
  split
  next => exact .refl s
  next b _ =>
    refine ((failJ_unread b beats s).kept.trans (post_unread (.portError .headerWrite b.addr) _).kept).trans ?_
    split
    next => exact .refl _
    next j hj => exact headerFailed_kept (by rw [post_eq]; unfold failJ landJ; split <;> exact hj)

theorem execSweepComplete_laws (s : State) : ∃ t, execSweepComplete s = .next t ∧ LawsKept s t := by
  refine act_laws (fun s hs => ?_) s
  split
  next => exact .refl s
  next r hr => exact sweepDone_kept hr hs

/-! ## The claims -/

theorem execCommitTaken_laws (s : State) : ∃ t, execCommitTaken s = .next t ∧ LawsKept s t := by
  refine actOnClaims_laws (fun s => ?_) s
  split
  next h =>
    have ha : s.transit.access = none := by simpa [atBoundary] using (Bool.and_eq_true_iff.1 h).1
    exact (takeCommit_unread s).kept.trans (boundary_kept (no_access_of_view (takeCommit_access s) ha))
  next => exact .refl s

theorem execCutTaken_laws (s : State) : ∃ t, execCutTaken s = .next t ∧ LawsKept s t := by
  refine actOnClaims_laws (fun s => ?_) s
  split
  next h =>
    have ha : s.transit.access = none := by simpa [atBoundary] using (Bool.and_eq_true_iff.1 h).1
    exact (takeCut_kept ha).trans (boundary_kept (no_access_of_view (takeCut_access s) ha))
  next => exact .refl s

theorem execRollbackStart_laws (s : State) : ∃ t, execRollbackStart s = .next t ∧ LawsKept s t := by
  refine actOnClaims_laws (fun s => ?_) s
  split
  next h =>
    have ha : s.transit.access = none := by simpa [atBoundary] using (Bool.and_eq_true_iff.1 h).1
    exact (takeStart_kept ha).trans (boundary_kept (no_access_of_view (takeStart_access s) ha))
  next => exact .refl s

/-! ## The walk and the recovery reads -/

theorem execWalkerSlotRead_laws (s : State) : ∃ t, execWalkerSlotRead s = .next t ∧ LawsKept s t := by
  refine act_laws (fun s _ => ?_) s
  dsimp only
  split
  next => exact .refl s
  next b _ =>
    refine .of_law fun law => (endJ_unread b s).kept.trans ?_
    split
    next h =>
      have hr : (endJ b s).epochs.walker.state = .read := by rw [endJ_epochs, h.2]
      have he : (endJ b s).epochs.engine = .rollingBack := by
        rw [endJ_epochs]
        exact rollingBack_of_walking law h.2 (by simp)
      split
      · exact setWalker_kept (by simp [hr]) (by simp [hr])
      · exact walkSlot_kept he hr _
    next => exact .refl _

theorem execWalkerReadJerr_laws (s : State) : ∃ t, execWalkerReadJerr s = .next t ∧ LawsKept s t := by
  refine act_laws (fun s _ => ?_) s
  split
  next => exact .refl s
  next =>
    split
    next h =>
      refine .of_law fun law => (freeJ_unread s).kept.trans (halt_kept ?_ _ _)
      exact rollingBack_of_walking (s := s) law h.2 (by simp)
    next => exact (freeJ_unread s).kept

theorem execWriteBackDone_laws (s : State) : ∃ t, execWriteBackDone s = .next t ∧ LawsKept s t := by
  refine act_laws (fun s _ => ?_) s
  dsimp only
  split
  next => exact .refl s
  next addr d _ =>
    refine .of_law fun law => ((setDmem_unread s (s.dmem.writeBytes addr d)).kept.trans (freeD_kept _)).trans ?_
    split
    next hw =>
      have he := rollingBack_of_walking law hw (by simp)
      split
      · exact endStep_kept he (by show s.epochs.walker.state ∈ _; simp [hw])
      · exact setWalker_kept (by show s.epochs.walker.state ∈ _; simp [hw]) (by simp [hw])
    next => exact .refl _

theorem execWriteBackDerr_laws (beats : Fin 4) (s : State) : ∃ t, execWriteBackDerr beats s = .next t ∧ LawsKept s t := by
  refine act_laws (fun s _ => ?_) s
  dsimp only
  split
  next => exact .refl s
  next addr d _ =>
    refine .of_law fun law =>
      ((setDmem_unread s (s.dmem.writeBytes addr (d.take (4 * beats.val)))).kept.trans (freeD_kept _)).trans ?_
    split
    next hw =>
      have he := rollingBack_of_walking law hw (by simp)
      exact halt_kept (by exact he) _ _
    next => exact .refl _

theorem execHeaderCopiesRead_laws (s : State) : ∃ t, execHeaderCopiesRead s = .next t ∧ LawsKept s t := by
  refine act_laws (fun s _ => ?_) s
  dsimp only
  split
  next b buf _ hr =>
    have hr' : (endJ b s).epochs.recovery = .copies buf := by rw [endJ_epochs, hr]
    refine .of_law fun law => (endJ_unread b s).kept.trans ?_
    have he : (endJ b s).epochs.engine = .recovering := by
      rw [endJ_epochs]
      exact law.recovery.2 (by simp [hr])
    split
    · exact setRecovery_kept he (by simp) (by simp [hr']) (by simp [hr']) (fun _ => by simp) fun _ => by simp
    · exact copiesRead_kept hr' _
  next => exact .refl s

theorem execScanSlotRead_laws (s : State) : ∃ t, execScanSlotRead s = .next t ∧ LawsKept s t := by
  refine act_laws (fun s _ => ?_) s
  dsimp only
  split
  next b h sc buf _ hr =>
    have hr' : (endJ b s).epochs.recovery = .scan h sc buf := by rw [endJ_epochs, hr]
    refine .of_law fun law => (endJ_unread b s).kept.trans ?_
    have he : (endJ b s).epochs.engine = .recovering := by
      rw [endJ_epochs]
      exact law.recovery.2 (by simp [hr])
    split
    · refine setRecovery_kept he (by simp) (by simp [hr']) (by simp [hr'])
        (fun m => ⟨fun _ _ _ _ => m.scanning h sc buf hr', by simp⟩) fun n => ⟨by simp, ?_⟩
      rintro _ _ _ eq
      cases eq
      exact n.1.scanned h sc buf hr'
    · exact scanSlot_kept hr' _
  next => exact .refl s

theorem execMapLoadRead_laws (s : State) : ∃ t, execMapLoadRead s = .next t ∧ LawsKept s t := by
  refine act_laws (fun s _ => ?_) s
  dsimp only
  split
  next b h sc ld buf _ hr =>
    have hr' : (endJ b s).epochs.recovery = .load h sc ld buf := by rw [endJ_epochs, hr]
    refine .of_law fun law => (endJ_unread b s).kept.trans ?_
    have he : (endJ b s).epochs.engine = .recovering := by
      rw [endJ_epochs]
      exact law.recovery.2 (by simp [hr])
    split
    · exact setRecovery_kept he (by simp) (by simp [hr']) (by simp [hr'])
        (fun m => ⟨by simp, fun _ _ _ _ _ => m.loading h sc ld buf (.inl hr')⟩)
        fun n => ⟨fun _ _ _ _ _ => n.1.rebuilt h sc ld buf (.inl hr'), by simp⟩
    · exact loadSlot_kept hr' _
  next => exact .refl s

theorem execRecoveryReadJerr_laws (s : State) : ∃ t, execRecoveryReadJerr s = .next t ∧ LawsKept s t := by
  refine act_laws (fun s _ => ?_) s
  split
  next => exact .refl s
  next =>
    split
    next he => exact (freeJ_unread s).kept.trans (recoverFail_kept (by exact he) _)
    next => exact (freeJ_unread s).kept

end Sys2Proof.Machine
end

section
/-! The commands of the link and the reset lines under the laws, the hold timer's expiry, and the three obligations that
they settle together (R11 to R18, R41, R46, R80, R86, R95, R100, R111, R117, R118, R130, R139, R144, R158 to R177). -/

namespace Sys2Proof.Machine

open Sys2Proof.Safety

/-! ## Frames -/

theorem judgeFrame_kept (code : Byte) (f : Frame) {owner : State → State}
    (ho : ∀ s, settled s → LawsKept s (owner s)) (s : State) (hs : settled s) :
    LawsKept s (judgeFrame code f owner s) := by
  unfold judgeFrame
  dsimp only
  split
  · split
    · exact (setLink_unread s _).kept
    · split
      · exact (setLink_unread s _).kept
      · split
        · exact (setLink_unread s _).kept
        · split
          · exact (setLink_unread s _).kept
          · exact (setLink_unread s _).kept.trans (ho _ hs)
  · exact .refl s

theorem quiet_frame_laws {code : Byte} {f : Frame} {owner : State → State} (ho : ∀ s, LawsKept s (owner s)) (s : State) :
    ∃ t, quiet s (judgeFrame code f owner) = .next t ∧ LawsKept s t :=
  quiet_laws (judgeFrame_kept code f fun s _ => ho s) s

theorem act_frame_laws {code : Byte} {f : Frame} {owner : State → State} (ho : ∀ s, LawsKept s (owner s)) (s : State) :
    ∃ t, act s (judgeFrame code f owner) = .next t ∧ LawsKept s t :=
  act_laws (judgeFrame_kept code f fun s _ => ho s) s

theorem execLengthOverrun_laws (code tag len : Byte) (s : State) :
    ∃ t, execLengthOverrun code tag len s = .next t ∧ LawsKept s t := by
  refine quiet_laws (fun s _ => ?_) s
  dsimp only
  split
  · split
    · exact (setLink_unread s _).kept
    · exact (setLink_unread s _).kept
  · exact .refl s

theorem execTransactionStart_laws (s : State) : ∃ t, execTransactionStart s = .next t ∧ LawsKept s t := by
  refine quiet_laws (fun s _ => ?_) s
  split
  · exact (setLink_unread s _).kept
  all_goals exact .refl s

theorem execSetPolicy_laws (f : Frame) (s : State) : ∃ t, execSetPolicy f s = .next t ∧ LawsKept s t := by
  refine quiet_frame_laws (fun s => ?_) s
  split
  · exact (answer_unread _ _ s).kept
  · exact (installPolicy_unread _ s).kept.trans (answer_unread _ _ _).kept

theorem execWriteRegion_laws (f : Frame) (s : State) : ∃ t, execWriteRegion f s = .next t ∧ LawsKept s t := by
  refine quiet_frame_laws (fun s => ?_) s
  dsimp only
  split
  · exact (answer_unread _ _ s).kept
  · exact (setRegions_unread s _).kept.trans (answer_unread _ _ _).kept

theorem execReadRegion_laws (f : Frame) (s : State) : ∃ t, execReadRegion f s = .next t ∧ LawsKept s t := by
  refine quiet_frame_laws (fun s => ?_) s
  split
  · exact (answer_unread _ _ s).kept
  · exact (answer_unread _ _ s).kept

theorem execReadEpochs_laws (f : Frame) (s : State) : ∃ t, execReadEpochs f s = .next t ∧ LawsKept s t := by
  refine quiet_frame_laws (fun s => ?_) s
  split
  · exact (answer_unread _ _ s).kept
  · exact (answer_unread _ _ s).kept

theorem execReadNotice_laws (f : Frame) (s : State) : ∃ t, execReadNotice f s = .next t ∧ LawsKept s t := by
  refine quiet_frame_laws (fun s => ?_) s
  dsimp only
  split
  · exact (answer_unread _ _ s).kept
  · exact (setNotices_unread s _).kept.trans (answer_unread _ _ _).kept

theorem execReadSlot_laws (f : Frame) (s : State) : ∃ t, execReadSlot f s = .next t ∧ LawsKept s t := by
  refine act_frame_laws (fun s => ?_) s
  dsimp only
  split
  · exact (answer_unread _ _ s).kept
  · split
    · exact Unread.kept rfl
    · exact (answer_unread _ _ s).kept

theorem execReadSlotDone_laws (s : State) : ∃ t, execReadSlotDone s = .next t ∧ LawsKept s t := by
  refine act_laws (fun s _ => ?_) s
  dsimp only
  split
  next b j _ _ =>
    refine (endJ_unread b s).kept.trans ?_
    split
    · exact Unread.kept rfl
    · exact (endReadSlot_unread _).kept.trans (answer_unread _ _ _).kept
  next => exact .refl s

theorem execReadSlotJerr_laws (s : State) : ∃ t, execReadSlotJerr s = .next t ∧ LawsKept s t := by
  refine act_laws (fun s _ => ?_) s
  split
  · exact .refl s
  · exact ((freeJ_unread s).kept.trans (endReadSlot_unread _).kept).trans (answer_unread _ _ _).kept

/-! ## Management -/

theorem validateCommit_kept (s : State) : LawsKept s (validateCommit s) := by
  unfold validateCommit
  split
  · exact claimCommit_kept s
  · split
    · exact (answer_unread _ _ s).kept
    · exact claimCommit_kept s

theorem execCommitRegions_laws (f : Frame) (s : State) : ∃ t, execCommitRegions f s = .next t ∧ LawsKept s t := by
  refine act_frame_laws (fun s => ?_) s
  split
  · exact claimCommit_kept s
  · exact validateCommit_kept s
  · exact validateCommit_kept s
  all_goals exact (answer_unread _ _ s).kept

theorem execFormat_laws (f : Frame) (s : State) : ∃ t, execFormat f s = .next t ∧ LawsKept s t := by
  refine act_frame_laws (fun s => ?_) s
  split
  next => exact (answer_unread _ _ s).kept
  next h => exact acceptFormat_kept h

theorem execRecover_laws (f : Frame) (s : State) : ∃ t, execRecover f s = .next t ∧ LawsKept s t := by
  refine act_frame_laws (fun s => ?_) s
  split
  next he => exact acceptRecover_kept he
  all_goals exact (answer_unread _ _ s).kept

theorem execCheckpoint_laws (f : Frame) (s : State) : ∃ t, execCheckpoint f s = .next t ∧ LawsKept s t := by
  refine act_frame_laws (fun s => ?_) s
  split
  next => exact (answer_unread _ _ s).kept
  next h =>
    refine ((answer_unread _ _ s).kept.trans (claimCut_kept ?_ _)).trans (claimed_kept _)
    rw [answer_eq]
    exact h

/-- The entries above a retained epoch other than the current one: the current epoch's is the last of them. -/
theorem keptEntries_current {s : State} {e : Word} (h : e < s.currentEpoch) :
    ∃ x, (keptEntries s.epochs.table e).getLast? = some x ∧ x.epoch = s.currentEpoch := by
  cases hl : s.epochs.table.getLast? with
  | none =>
    unfold State.currentEpoch at h
    rw [hl] at h
    exact absurd (show e.toNat < 0 from h) (by omega)
  | some x =>
    have current : s.currentEpoch = x.epoch := by unfold State.currentEpoch; rw [hl]
    obtain ⟨l, hl⟩ := List.getLast?_eq_some_iff.1 hl
    refine ⟨x, ?_, current.symm⟩
    rw [current] at h
    unfold keptEntries
    rw [hl, List.filter_append]
    simp [h]

theorem takeRelease_kept {s : State} {e : Word} (h : releaseRefusal e s = none) : LawsKept s (takeRelease e s) := by
  rw [releaseRefusal_eq] at h
  simp only [ite_eq_iff, reduceCtorEq, and_false, false_or, not_not] at h
  obtain ⟨⟨he, -⟩, -, -, -, below, -⟩ := h
  obtain ⟨x, last, hx⟩ := keptEntries_current (s := s) (e := e) below
  have free : s.epochs.engine ≠ .formatting ∧ s.epochs.engine ≠ .recovering ∧ s.epochs.engine ∉ [.offline, .recovering] := by
    rcases he with he | he <;> simp [he]
  obtain ⟨hf, hr, hw⟩ := free
  have sublist : (keptEntries s.epochs.table e).Sublist s.epochs.table := List.filter_sublist
  have nonempty : keptEntries s.epochs.table e ≠ [] := by
    intro k
    rw [k] at last
    cases last
  let t : State := s.setEpochs { s.epochs with table := keptEntries s.epochs.table e }
  have current : t.currentEpoch = s.currentEpoch := by
    rw [← hx]
    unfold State.currentEpoch
    rw [show t.epochs.table.getLast? = some x from last]
  have released : LawsKept s t :=
    { engine := fun law => { law with }
      maps := fun _ m => mapLaw_of_view m rfl
      epochs := fun law _ n =>
        ⟨{  room := sublist.length_le.trans n.1.room
            rising := n.1.rising.sublist (sublist.map _)
            numbered := fun y hy => n.1.numbered y (sublist.subset hy)
            cut := fun h k => lt_of_le_of_lt sublist.length_le (n.1.cut h k)
            current := fun _ => nonempty
            formatted := by simp [t, format_idle law hf]
            rebuilt := fun _ _ _ _ _ => nonempty
            scanned := n.1.scanned }, { n.2 with }⟩
      transit := fun _ _ _ law => transitLaw_of_kept law rfl rfl (fun _ => id) current rfl id id }
  refine released.trans (LawsKept.trans (Unread.kept ?_) (requestHeader_kept (writesHeaders_of_engine ?_) .release))
  · rfl
  · exact hw

theorem execRelease_laws (f : Frame) (s : State) : ∃ t, execRelease f s = .next t ∧ LawsKept s t := by
  refine act_frame_laws (fun s => ?_) s
  split
  next => exact (answer_unread _ _ s).kept
  next h => exact takeRelease_kept h

/-- A rollback accepted is claimed in JOURNALING or HELD, with no checkpoint in flight and a number left (R117). -/
theorem rollbackConditions_of_none {k : Word} {s : State} (h : rollbackRefusal k s = none) :
    (s.epochs.engine = .journaling ∨ s.epochs.engine = .held) ∧ s.epochs.ckptInFlight = false ∧
      s.epochs.lastUsed.toNat < 4294967295 := by
  have runs : s.epochs.engine ≠ .offline ∧ s.epochs.engine ≠ .faulted := by
    unfold rollbackRefusal at h
    simp only [ite_eq_iff, reduceCtorEq, and_false, false_or, not_or] at h
    exact h.1
  rw [rollbackRefusal_eq runs.1 runs.2] at h
  simp only [ite_eq_iff, reduceCtorEq, and_false, false_or, and_true, not_not] at h
  obtain ⟨⟨he, -⟩, hc, -, -, -, -, left⟩ := h
  exact ⟨he, hc, left⟩

theorem endStall_kept (s : State) : LawsKept s (endStall s) := by
  unfold endStall
  split
  · exact .refl s
  · split
    · exact (refuseAccess_lands _ _ s).kept
    · exact .refl s

theorem acceptRollback_kept {s : State} {k : Word} (h : rollbackRefusal k s = none) :
    LawsKept s (acceptRollback k s) := by
  obtain ⟨he, hc, left⟩ := rollbackConditions_of_none h
  have claimed : LawsKept s { s with
      epochs.pendingMark := 0, epochs.startClaimed := true, transit.claims.start := some k } :=
    { engine := fun law =>
        { law with
          claimed := rfl
          claimedIn := fun _ => by rcases he with he | he <;> simp [he]
          mark := by simp
          marks := by simp
          checkpoint := by simp [hc] }
      maps := fun _ m => mapLaw_of_view m rfl
      epochs := fun _ _ n => ⟨{ n.1 with }, { n.2 with walk := fun _ => left }⟩
      transit := fun _ _ _ law => transitLaw_of_view law rfl rfl }
  unfold acceptRollback
  rw [answer_eq]
  dsimp only
  split
  next idle =>
    refine LawsKept.trans ?_ (boundary_kept (Option.isNone_iff_eq_none.1 idle))
    exact claimed.trans (Unread.kept rfl)
  next =>
    refine LawsKept.trans ?_ (endStall_kept _)
    exact claimed.trans (Unread.kept rfl)

theorem execRollback_laws (f : Frame) (s : State) : ∃ t, execRollback f s = .next t ∧ LawsKept s t := by
  refine act_frame_laws (fun s => ?_) s
  split
  next => exact (answer_unread _ _ s).kept
  next h => exact acceptRollback_kept h

theorem forgetStarts_unread (s : State) : Unread s (setHeader (forgetStarts s.journal.header) s) := by
  refine .of_views ?_ rfl rfl rfl rfl
  cases h : s.journal.header.inFlight <;> simp [engineView, setHeader, forgetStarts, h]

theorem execAbort_laws (f : Frame) (s : State) : ∃ t, execAbort f s = .next t ∧ LawsKept s t := by
  refine act_frame_laws (fun s => ?_) s
  dsimp only
  split
  next he =>
    split
    next => exact (forgetStarts_unread s).kept.trans (halt_kept (by exact he) _ _)
    next hw => exact setWalker_kept (by simp [hw]) (by simp [hw])
    next hw => exact setWalker_kept (by simp [hw]) (by simp [hw])
    next => exact (answer_unread _ _ s).kept
    next => exact (answer_unread _ _ s).kept
  next => exact (answer_unread _ _ s).kept

/-! ## The reset lines (R41, R42, R46) -/

/-- After power-on the laws hold whatever state the part was in. -/
theorem powerOn_kept (j d : Fin 4) (s : State) : LawsKept s (powerOn j d s) where
  engine _ := engineLaw_of_view engineLaw_reset rfl
  maps _ _ :=
    { one := by simp [powerOn]
      active := by simp [powerOn, State.reset, EpochController.powerOn]
      running := nofun
      queued := nofun
      sweeping := fun i h => by cases i <;> cases h
      formatting := by simp [powerOn, State.reset, EpochController.powerOn]
      scanning := nofun
      loading := by simp [powerOn, State.reset, EpochController.powerOn]
      cutIn := nofun
      cutClean := nofun }
  epochs _ _ _ := EpochsGoOn.of_view (s := State.reset) ⟨epochLaw_reset, nofun, by decide⟩ rfl
  transit _ _ _ _ := Idle.transitLaw ⟨rfl, rfl, nofun⟩

theorem settleAbandoned_kept (a : Access) (s : State) : LawsKept s (settleAbandoned a s) := by
  unfold settleAbandoned
  split
  next => exact .refl s
  next =>
    split
    · exact (returnSlot_unread s).kept
    · exact .refl s
  next =>
    split
    · exact ((disownJ_unread _ s).trans (returnSlot_unread _)).kept
    · exact (disownJ_unread _ s).kept
  next =>
    split
    · exact recordCapture_kept _ s
    · exact .refl s
  all_goals exact .refl s

theorem abandon_kept (s : State) : LawsKept s (abandon s) := by
  unfold abandon
  split
  next => exact .refl s
  next a _ => exact (settleAbandoned_kept a s).trans (endAccess_lands false _).kept

theorem execSystemReset_laws (s : State) : ∃ t, execSystemReset s = .next t ∧ LawsKept s t := by
  refine ⟨_, rfl, ?_⟩
  split
  · exact (setSrstn_unread s true).kept
  · exact ((setSrstn_unread s true).kept.trans (abandon_kept _)).trans (arbitrate_kept _)

end Sys2Proof.Machine
end

section
/-! The hold timer's expiry under the laws, and the three obligations that all commands settle together (R37, R48 to R57,
R63, R81 to R89, R104 to R111). -/

namespace Sys2Proof.Machine

open Sys2Proof.Safety

/-! ## The hold timer's expiry (R111) -/

theorem breakEpoch_mapView (c : BreakCause) (s : State) : mapView (breakEpoch c s) = mapView s := by
  rw [breakEpoch_eq, post_eq]
  by_cases he : s.epochs.engine = .faulted
  · rw [requestHeader_of_faulted (by exact he)]
    rfl
  · cases hj : s.journal.header.inFlight with
    | none => rw [requestHeader_of_free (by exact he) (by exact hj)]; rfl
    | some j => rw [requestHeader_of_busy (by exact he) (by exact hj)]; rfl

/-- The expiry leaves the maps and all that their law reads, in any state. -/
theorem holdTimerExpiry_mapLaw {s t : State} (h : exec .holdTimerExpiry s = .next t) (e : EngineLaw s) (m : MapLaw s) :
    MapLaw t := by
  change execHoldTimerExpiry s = _ at h
  unfold execHoldTimerExpiry act quiet at h
  obtain rfl := Host.Outcome.next.inj h
  split
  · exact m
  · refine mapLaw_of_view ((settle_kept s).maps e m) ((arbitrate_mapView _).trans ?_)
    dsimp only
    split
    next => rfl
    next a ha =>
      split
      next =>
        refine (breakEpoch_mapView _ _).trans ?_
        simp [mapView, setAccess, ha]
      next => rfl

/-- A write whose hold timer has expired waits for the break of the current epoch to be recorded (R111). -/
theorem holdExpired_kept {s : State} {a : Access} (ha : s.transit.access = some a) (hs : a.stage = .waitSpace)
    (he : s.epochs.engine = .journaling) : LawsKept s (breakEpoch .holdExpired
      ((setAccess { a with stage := .waitHeader } s).setTransit
        { (setAccess { a with stage := .waitHeader } s).transit with timer := none })) := by
  rw [breakEpoch_eq]
  refine LawsKept.trans (LawsKept.trans ?_ (requestHeader_kept (writesHeaders_of_engine ?_) _)) (post_unread _ _).kept
  · refine access_moved_kept ha rfl rfl rfl rfl (fun onPort k => ?_) fun _ _ n law => ?_
    · have := onPort k
      rw [hs] at this
      simp at this
    · have broken : currentBroken { s with epochs.latestBroken := s.currentEpoch } = true :=
        (currentBroken_iff _).2 ⟨currentEpoch_ne_zero (s := s) n he, rfl⟩
      exact
        { law with
          stage := by simp
          capturing := fun _ => law.capturing (by rw [hs]; decide)
          slot := fun h => by simp at h
          waiting := fun h => by cases h
          broken := fun _ => broken
          timer := by simp
          writeAhead := fun h => by cases h }
  · show s.epochs.engine ∉ _
    simp [he]

theorem holdTimerExpiry_laws (s : State)
    (hw : ∀ a : Access, s.transit.access = some a → a.stage = .waitSpace → s.epochs.engine = .journaling) :
    ∃ t, exec .holdTimerExpiry s = .next t ∧ LawsKept s t := by
  show ∃ t, execHoldTimerExpiry s = .next t ∧ LawsKept s t
  unfold execHoldTimerExpiry act quiet
  split
  · exact ⟨s, rfl, .refl s⟩
  · refine ⟨_, rfl, (settle_kept s).trans (LawsKept.trans ?_ (arbitrate_kept _))⟩
    dsimp only
    split
    next => exact .refl _
    next a ha =>
      split
      next h =>
        have same : settle s = s := settle_of_settled fun k => by
          rw [settle_access, k] at ha
          cases ha
        rw [same] at ha ⊢
        exact holdExpired_kept ha h.1 (hw a ha h.1)
      next => exact .refl _

/-! ## Every command -/

theorem exec_laws {c : Instr} (h : c ≠ .holdTimerExpiry) (s : State) : ∃ t, exec c s = .next t ∧ LawsKept s t := by
  cases c with
  | powerOnReset j d => exact ⟨_, rfl, powerOn_kept j d s⟩
  | systemReset => exact execSystemReset_laws s
  | srstnDeasserted => exact ⟨_, rfl, (setSrstn_unread s false).kept⟩
  | pornDeasserted => exact ⟨_, rfl, (setPorn_unread s false).kept⟩
  | accessArrival ua write burst priv => exact execAccessArrival_laws ua write burst priv s
  | forwardBeatAck ube data => exact execForwardBeatAck_laws ube data s
  | forwardDerr => exact execForwardDerr_laws s
  | oldDataBurstDone => exact execOldDataBurstDone_laws s
  | oldDataDerr => exact execOldDataDerr_laws s
  | recordWriteDone => exact execRecordWriteDone_laws s
  | recordWriteJerr beats => exact execRecordWriteJerr_laws beats s
  | markerWriteDone => exact execMarkerWriteDone_laws s
  | markerWriteJerr beats => exact execMarkerWriteJerr_laws beats s
  | headerWriteDone => exact execHeaderWriteDone_laws s
  | headerWriteJerr beats => exact execHeaderWriteJerr_laws beats s
  | sweepComplete => exact execSweepComplete_laws s
  | timeBaseTick => exact execTimeBaseTick_laws s
  | holdTimerExpiry => exact absurd rfl h
  | commitTaken => exact execCommitTaken_laws s
  | cutTaken => exact execCutTaken_laws s
  | rollbackStart => exact execRollbackStart_laws s
  | walkerSlotRead => exact execWalkerSlotRead_laws s
  | walkerReadJerr => exact execWalkerReadJerr_laws s
  | writeBackDone => exact execWriteBackDone_laws s
  | writeBackDerr beats => exact execWriteBackDerr_laws beats s
  | headerCopiesRead => exact execHeaderCopiesRead_laws s
  | scanSlotRead => exact execScanSlotRead_laws s
  | mapLoadRead => exact execMapLoadRead_laws s
  | recoveryReadJerr => exact execRecoveryReadJerr_laws s
  | readSlotDone => exact execReadSlotDone_laws s
  | readSlotJerr => exact execReadSlotJerr_laws s
  | transactionStart => exact execTransactionStart_laws s
  | transactionEnd => exact quiet_laws (fun s _ => (setLink_unread s _).kept) s
  | responseDelivered => exact quiet_laws (fun s _ => (setLink_unread s _).kept) s
  | lengthOverrun code tag len => exact execLengthOverrun_laws code tag len s
  | unknownCommandFrame code f => exact quiet_frame_laws (fun s => (answer_unread _ _ s).kept) s
  | identify f => exact quiet_frame_laws (fun s => (answer_unread _ _ s).kept) s
  | getStatus f => exact quiet_frame_laws (fun s => (answer_unread _ _ s).kept) s
  | writeRegion f => exact execWriteRegion_laws f s
  | readRegion f => exact execReadRegion_laws f s
  | commitRegions f => exact execCommitRegions_laws f s
  | revertStaged f =>
    exact quiet_frame_laws (fun s => (setRegions_unread s _).kept.trans (answer_unread _ _ _).kept) s
  | setPolicy f => exact execSetPolicy_laws f s
  | format f => exact execFormat_laws f s
  | recover f => exact execRecover_laws f s
  | checkpoint f => exact execCheckpoint_laws f s
  | release f => exact execRelease_laws f s
  | rollback f => exact execRollback_laws f s
  | abort f => exact execAbort_laws f s
  | readEpochs f => exact execReadEpochs_laws f s
  | readNotice f => exact execReadNotice_laws f s
  | readSlot f => exact execReadSlot_laws f s

/-- A step keeps the laws of every state in which a write stalls for space in JOURNALING alone. -/
theorem step_laws {s t : State} (h : step s = .next t)
    (hw : ∀ a : Access, s.transit.access = some a → a.stage = .waitSpace → s.epochs.engine = .journaling) :
    LawsKept s t := by
  unfold step at h
  split at h
  next =>
    obtain rfl := Host.Outcome.next.inj h
    exact .refl s
  next c rest _ =>
    refine (setPending_unread s rest).kept.trans ?_
    have answered : ∃ u, exec c (s.setPending rest) = .next u ∧ LawsKept (s.setPending rest) u := by
      by_cases hc : c = .holdTimerExpiry
      · subst hc
        exact holdTimerExpiry_laws _ hw
      · exact exec_laws hc _
    obtain ⟨u, answers, kept⟩ := answered
    rw [answers] at h
    obtain rfl := Host.Outcome.next.inj h
    exact kept

theorem waitSpace_in_journaling {s : State} (law : TransitLaw s) (a : Access) (ha : s.transit.access = some a)
    (hs : a.stage = .waitSpace) : s.epochs.engine = .journaling :=
  ((law.access a ha).capturing (by rw [hs]; decide)).2.2.2

/-- Settles O58: every command keeps the laws; the expiry of the hold timer needs the upstream side's. -/
theorem engineLawKept : Obligations.EngineLawKept := by
  intro s t law transit h
  exact (step_laws h (waitSpace_in_journaling transit)).engine law

/-- Settles O59: every command keeps the laws; the expiry of the hold timer leaves the maps as they are. -/
theorem mapLawKept : Obligations.MapLawKept := by
  intro s t e m h
  unfold step at h
  split at h
  next =>
    obtain rfl := Host.Outcome.next.inj h
    exact m
  next c rest _ =>
    have pending := (setPending_unread s rest).kept
    by_cases hc : c = .holdTimerExpiry
    · subst hc
      exact holdTimerExpiry_mapLaw h (pending.engine e) (pending.maps e m)
    · obtain ⟨u, answers, kept⟩ := exec_laws hc (s.setPending rest)
      rw [answers] at h
      obtain rfl := Host.Outcome.next.inj h
      exact kept.maps (pending.engine e) (pending.maps e m)

/-- Settles O60: every command keeps the laws while numbers are left, and the bound leaves enough for one step. -/
theorem writeAheadKept : Obligations.WriteAheadKept := by
  intro s t e m n transit bound h
  have kept := step_laws h (waitSpace_in_journaling transit)
  have goesOn : EpochsGoOn s := ⟨n, fun _ _ => by omega, fun _ => by omega⟩
  exact ⟨(kept.epochs e m goesOn).1, kept.transit e m goesOn transit⟩

end Sys2Proof.Machine
end
